-- ==== Sys2Proof/Word.lean ====
section
/-! DEFINITION. The word types of the block (00_scope.md rules R3, R61). -/

namespace Sys2Proof

/-- A byte: a general register, a timer, a memory byte, the immediate `kk` (R3, R10, R17, R40). -/
abbrev Byte := BitVec 8

/-- A 16-bit word: `pc`, `I`, a call-stack entry, an instruction word (R3, R12, R14, R15, R60). -/
abbrev Word := BitVec 16

/-- A 12-bit address operand `nnn` (30_encoding.md R60, R61). -/
abbrev Addr := BitVec 12

/-- The number of a general register, 0..15 (10_state.md R10). -/
abbrev Reg := Fin 16

/-- The number of a key, 0..15 (10_state.md R20). -/
abbrev Key := Fin 16

end Sys2Proof
end

