-- ==== Sys2Proof/Config.lean ====
section
/-! DEFINITION. What an implementation fixes (the parameters P1..P6 of 00_scope.md rule R4) and the model's one free
value, the random byte (40_cycle.md R89). The default of each parameter is in Machine/Defaults.lean. -/

namespace Sys2Proof

/-- P2 VF_ALIAS_ORDER: what VF holds after 8xy5, 8xy6, 8xy7 and 8xyE with x = 0xF (43_alu.md R139, D6). -/
inductive VfAliasOrder where
  /-- The flag is written first, then the result: VF ends as the result. -/
  | docOrder
  /-- VF ends as the flag. -/
  | flagLast
  /-- The model gives the case no meaning. -/
  | refuse
  deriving DecidableEq, Repr

/-- P3 GLYPH_WRITE: an instruction's write that starts in the glyph table (20_memory.md R44, D10). -/
inductive GlyphWrite where
  /-- It raises GlyphTableWrite. -/
  | fault
  /-- It is a write like any other. -/
  | allow
  deriving DecidableEq, Repr

/-- P4 KEY_INDEX_OOR: Ex9E and ExA1 with Vx above 15 (45_keys_timers.md R190, R191, D11). -/
inductive KeyIndexOor where
  /-- It raises KeyIndexOutOfRange. -/
  | fault
  /-- The key number is Vx & 0xF. -/
  | mask
  deriving DecidableEq, Repr

/-- P5 GLYPH_ADDR_OOR: Fx29 with Vx above 15 (44_index_memory.md R172, D12). -/
inductive GlyphAddrOor where
  /-- I = Vx * 5, unmasked. -/
  | formula
  /-- The model gives the case no meaning. -/
  | refuse
  deriving DecidableEq, Repr

/-- P6 DECODE_STRICT: the low nibble of 5xy_ and 9xy_ (30_encoding.md R64, D4). -/
inductive DecodeStrict where
  /-- op[3:0] must be 0. -/
  | strict
  /-- op[3:0] is not looked at. -/
  | loose
  deriving DecidableEq, Repr

/-- The parameters of the block (00_scope.md R4). Fixed for a machine: no instruction and no host transaction writes
one (Sys2Proof.Machine.State.cfg holds them; notes/assumptions/3.md). -/
structure Config where
  /-- P1 FONT: the 80 bytes of the glyph table (70_reset_and_hazards.md R351, D2). -/
  font : Vector Byte 80
  /-- P2 VF_ALIAS_ORDER. -/
  vfAliasOrder : VfAliasOrder
  /-- P3 GLYPH_WRITE. -/
  glyphWrite : GlyphWrite
  /-- P4 KEY_INDEX_OOR. -/
  keyIndexOor : KeyIndexOor
  /-- P5 GLYPH_ADDR_OOR. -/
  glyphAddrOor : GlyphAddrOor
  /-- P6 DECODE_STRICT. -/
  decodeStrict : DecodeStrict
  deriving DecidableEq, Repr

/-- FREE VALUE. The random byte of the n-th draw that the host's byte is not said for (40_cycle.md R89: "a free draw per
step, with no distribution and no relation between steps"). It has no body: nothing can be proved about its values
(notes/assumptions/16.md). -/
opaque Config.freeRandom : Nat → Byte

end Sys2Proof
end

