-- ==== Sys2Proof/Syntax.lean ====
section
/-! DEFINITION. The instructions: one constructor per row of spec/opcode_table.json (30_encoding.md rule R63), with the
operands its rule names. A field that a rule does not read (the y of 8xy6 and 8xyE) is no operand (R61). -/

namespace Sys2Proof

/-- The 34 instructions, in the order of the opcode map (30_encoding.md R63). -/
inductive Instr where
  /-- 00E0 `CLS` (R100). -/
  | cls
  /-- 00EE `RET` (R120). -/
  | ret
  /-- 1nnn `JP nnn` (R121). -/
  | jp (nnn : Addr)
  /-- 2nnn `CALL nnn` (R122). -/
  | call (nnn : Addr)
  /-- 3xkk `SE Vx, kk` (R123). -/
  | seByte (x : Reg) (kk : Byte)
  /-- 4xkk `SNE Vx, kk` (R124). -/
  | sneByte (x : Reg) (kk : Byte)
  /-- 5xy0 `SE Vx, Vy` (R125). -/
  | seReg (x y : Reg)
  /-- 6xkk `LD Vx, kk` (R141). -/
  | ldByte (x : Reg) (kk : Byte)
  /-- 7xkk `ADD Vx, kk` (R142). -/
  | addByte (x : Reg) (kk : Byte)
  /-- 8xy0 `LD Vx, Vy` (R143). -/
  | ldReg (x y : Reg)
  /-- 8xy1 `OR Vx, Vy` (R144). -/
  | orReg (x y : Reg)
  /-- 8xy2 `AND Vx, Vy` (R145). -/
  | andReg (x y : Reg)
  /-- 8xy3 `XOR Vx, Vy` (R146). -/
  | xorReg (x y : Reg)
  /-- 8xy4 `ADD Vx, Vy` (R147). -/
  | addReg (x y : Reg)
  /-- 8xy5 `SUB Vx, Vy` (R148). -/
  | sub (x y : Reg)
  /-- 8xy6 `SHR Vx` (R149); the word's y field is ignored. -/
  | shr (x : Reg)
  /-- 8xy7 `SUBN Vx, Vy` (R150). -/
  | subn (x y : Reg)
  /-- 8xyE `SHL Vx` (R151); the word's y field is ignored. -/
  | shl (x : Reg)
  /-- 9xy0 `SNE Vx, Vy` (R126). -/
  | sneReg (x y : Reg)
  /-- Annn `LD I, nnn` (R170). -/
  | ldI (nnn : Addr)
  /-- Bnnn `JP V0, nnn` (R127). -/
  | jpV0 (nnn : Addr)
  /-- Cxkk `RND Vx, kk` (R152). -/
  | rnd (x : Reg) (kk : Byte)
  /-- Dxyn `DRW Vx, Vy, n` (R105); n is a row count. -/
  | drw (x y : Reg) (n : Nat)
  /-- Ex9E `SKP Vx` (R190). -/
  | skp (x : Reg)
  /-- ExA1 `SKNP Vx` (R191). -/
  | sknp (x : Reg)
  /-- Fx07 `LD Vx, DT` (R192). -/
  | ldVxDT (x : Reg)
  /-- Fx0A `LD Vx, K` (R193). -/
  | ldVxK (x : Reg)
  /-- Fx15 `LD DT, Vx` (R194). -/
  | ldDT (x : Reg)
  /-- Fx18 `LD ST, Vx` (R195). -/
  | ldST (x : Reg)
  /-- Fx1E `ADD I, Vx` (R171). -/
  | addI (x : Reg)
  /-- Fx29 `LD F, Vx` (R172). -/
  | ldF (x : Reg)
  /-- Fx33 `LD B, Vx` (R173). -/
  | ldB (x : Reg)
  /-- Fx55 `LD [I], Vx` (R174). -/
  | storeRegs (x : Reg)
  /-- Fx65 `LD Vx, [I]` (R175). -/
  | loadRegs (x : Reg)
  deriving DecidableEq, Repr

/-- The row's mnemonic as spec/opcode_table.json spells it. -/
def Instr.mnemonic : Instr → String
  | .cls => "CLS"
  | .ret => "RET"
  | .jp _ => "JP_nnn"
  | .call _ => "CALL_nnn"
  | .seByte _ _ => "SE_Vx__kk"
  | .sneByte _ _ => "SNE_Vx__kk"
  | .seReg _ _ => "SE_Vx__Vy"
  | .ldByte _ _ => "LD_Vx__kk"
  | .addByte _ _ => "ADD_Vx__kk"
  | .ldReg _ _ => "LD_Vx__Vy"
  | .orReg _ _ => "OR_Vx__Vy"
  | .andReg _ _ => "AND_Vx__Vy"
  | .xorReg _ _ => "XOR_Vx__Vy"
  | .addReg _ _ => "ADD_Vx__Vy"
  | .sub _ _ => "SUB_Vx__Vy"
  | .shr _ => "SHR_Vx"
  | .subn _ _ => "SUBN_Vx__Vy"
  | .shl _ => "SHL_Vx"
  | .sneReg _ _ => "SNE_Vx__Vy"
  | .ldI _ => "LD_I__nnn"
  | .jpV0 _ => "JP_V0__nnn"
  | .rnd _ _ => "RND_Vx__kk"
  | .drw _ _ _ => "DRW_Vx__Vy__n"
  | .skp _ => "SKP_Vx"
  | .sknp _ => "SKNP_Vx"
  | .ldVxDT _ => "LD_Vx__DT"
  | .ldVxK _ => "LD_Vx__K"
  | .ldDT _ => "LD_DT__Vx"
  | .ldST _ => "LD_ST__Vx"
  | .addI _ => "ADD_I__Vx"
  | .ldF _ => "LD_F__Vx"
  | .ldB _ => "LD_B__Vx"
  | .storeRegs _ => "LD__I___Vx"
  | .loadRegs _ => "LD_Vx___I"

end Sys2Proof
end

