-- ==== Sys2Proof/Decode.lean ====
section
/-! DEFINITION. Decoding (30_encoding.md rules R60 to R67), the encoder, and the opcode map of R63 as a table. The
numeric opcodes and the bit positions of the fields are D1 (notes/assumptions/1.md). -/

namespace Sys2Proof

/-! ## Fields (R60) -/

/-- c = op[15:12], the major opcode. -/
def fieldC (w : Word) : BitVec 4 := w.extractLsb' 12 4
/-- x = op[11:8], as bits. -/
def fieldX (w : Word) : BitVec 4 := w.extractLsb' 8 4
/-- y = op[7:4], as bits. -/
def fieldY (w : Word) : BitVec 4 := w.extractLsb' 4 4
/-- n = op[3:0], as bits. -/
def fieldN (w : Word) : BitVec 4 := w.extractLsb' 0 4
/-- kk = op[7:0]. -/
def fieldKK (w : Word) : Byte := w.extractLsb' 0 8
/-- nnn = op[11:0]. -/
def fieldNNN (w : Word) : Addr := w.extractLsb' 0 12

/-- A 4-bit field read as a register number. -/
def regOf (b : BitVec 4) : Reg := ⟨b.toNat, b.isLt⟩
/-- A register number as a 4-bit field. -/
def regBits (r : Reg) : BitVec 4 := BitVec.ofNat 4 r.val

/-! ## The decoder (R64) -/

/-- Why bytes are not an instruction. -/
inductive DecodeError where
  /-- Fewer than two bytes (R67: a decoder always consumes two bytes). -/
  | truncated
  /-- The word selects no row of the opcode map. It is no illegal instruction: it executes as a no-op (R65, R84). -/
  | unknownEncoding (w : Word)
  deriving DecidableEq, Repr

/-- 00__ : CLS and RET are whole words; every other 0nnn is unknown (R63 rows 1 and 2, R65). -/
def decodeRow0 (w : Word) : Except DecodeError Instr :=
  if w = 0x00E0#16 then .ok .cls
  else if w = 0x00EE#16 then .ok .ret
  else .error (.unknownEncoding w)

/-- 5xy_ and 9xy_ : the low nibble must be 0 under P6 = Strict and is not looked at under P6 = Loose (R64). -/
def decodeRegPair (p6 : DecodeStrict) (w : Word) (i : Instr) : Except DecodeError Instr :=
  if p6 = .loose ∨ fieldN w = 0x0#4 then .ok i else .error (.unknownEncoding w)

/-- 8xy_ : the function is the low nibble (R63 rows 10 to 18). SHR and SHL do not read y (R61). -/
def decodeRow8 (w : Word) : Except DecodeError Instr :=
  let x := regOf (fieldX w)
  let y := regOf (fieldY w)
  match fieldN w with
  | 0x0#4 => .ok (.ldReg x y)
  | 0x1#4 => .ok (.orReg x y)
  | 0x2#4 => .ok (.andReg x y)
  | 0x3#4 => .ok (.xorReg x y)
  | 0x4#4 => .ok (.addReg x y)
  | 0x5#4 => .ok (.sub x y)
  | 0x6#4 => .ok (.shr x)
  | 0x7#4 => .ok (.subn x y)
  | 0xE#4 => .ok (.shl x)
  | _ => .error (.unknownEncoding w)

/-- Ex__ : the function is the low byte (R63 rows 24 and 25). -/
def decodeRowE (w : Word) : Except DecodeError Instr :=
  let x := regOf (fieldX w)
  match fieldKK w with
  | 0x9E#8 => .ok (.skp x)
  | 0xA1#8 => .ok (.sknp x)
  | _ => .error (.unknownEncoding w)

/-- Fx__ : the function is the low byte (R63 rows 26 to 34). -/
def decodeRowF (w : Word) : Except DecodeError Instr :=
  let x := regOf (fieldX w)
  match fieldKK w with
  | 0x07#8 => .ok (.ldVxDT x)
  | 0x0A#8 => .ok (.ldVxK x)
  | 0x15#8 => .ok (.ldDT x)
  | 0x18#8 => .ok (.ldST x)
  | 0x1E#8 => .ok (.addI x)
  | 0x29#8 => .ok (.ldF x)
  | 0x33#8 => .ok (.ldB x)
  | 0x55#8 => .ok (.storeRegs x)
  | 0x65#8 => .ok (.loadRegs x)
  | _ => .error (.unknownEncoding w)

/-- Decode one instruction word. It depends on the word and on P6 alone (R64). -/
def decodeWord (p6 : DecodeStrict) (w : Word) : Except DecodeError Instr :=
  let x := regOf (fieldX w)
  let y := regOf (fieldY w)
  match fieldC w with
  | 0x0#4 => decodeRow0 w
  | 0x1#4 => .ok (.jp (fieldNNN w))
  | 0x2#4 => .ok (.call (fieldNNN w))
  | 0x3#4 => .ok (.seByte x (fieldKK w))
  | 0x4#4 => .ok (.sneByte x (fieldKK w))
  | 0x5#4 => decodeRegPair p6 w (.seReg x y)
  | 0x6#4 => .ok (.ldByte x (fieldKK w))
  | 0x7#4 => .ok (.addByte x (fieldKK w))
  | 0x8#4 => decodeRow8 w
  | 0x9#4 => decodeRegPair p6 w (.sneReg x y)
  | 0xA#4 => .ok (.ldI (fieldNNN w))
  | 0xB#4 => .ok (.jpV0 (fieldNNN w))
  | 0xC#4 => .ok (.rnd x (fieldKK w))
  | 0xD#4 => .ok (.drw x y (fieldN w).toNat)
  | 0xE#4 => decodeRowE w
  | 0xF#4 => decodeRowF w
  | _ => .error (.unknownEncoding w)

/-- The instruction word that two bytes make: big-endian, the byte at the lower address is op[15:8] (20_memory.md R46). -/
def wordOfBytes (hi lo : Byte) : Word := hi ++ lo

/-- Decode the instruction at the head of a list of bytes and give the rest back (R67). -/
def decode (p6 : DecodeStrict) : List Byte → Except DecodeError (Instr × List Byte)
  | hi :: lo :: rest =>
    match decodeWord p6 (wordOfBytes hi lo) with
    | .ok i => .ok (i, rest)
    | .error e => .error e
  | [_] => .error .truncated
  | [] => .error .truncated

/-! ## The encoder (R62, R63) -/

/-- Format A: c nnn. -/
def formatA (c : BitVec 4) (nnn : Addr) : Word := c ++ nnn
/-- Formats RI and R: c x kk. -/
def formatRI (c : BitVec 4) (x : Reg) (kk : Byte) : Word := c ++ regBits x ++ kk
/-- Formats RR and RRN: c x y n. -/
def formatRR (c : BitVec 4) (x y : Reg) (n : BitVec 4) : Word := c ++ regBits x ++ regBits y ++ n

/-- The word of an instruction. SHR and SHL are written with y = 0 (R68). -/
def encode : Instr → Word
  | .cls => 0x00E0#16
  | .ret => 0x00EE#16
  | .jp nnn => formatA 0x1#4 nnn
  | .call nnn => formatA 0x2#4 nnn
  | .seByte x kk => formatRI 0x3#4 x kk
  | .sneByte x kk => formatRI 0x4#4 x kk
  | .seReg x y => formatRR 0x5#4 x y 0x0#4
  | .ldByte x kk => formatRI 0x6#4 x kk
  | .addByte x kk => formatRI 0x7#4 x kk
  | .ldReg x y => formatRR 0x8#4 x y 0x0#4
  | .orReg x y => formatRR 0x8#4 x y 0x1#4
  | .andReg x y => formatRR 0x8#4 x y 0x2#4
  | .xorReg x y => formatRR 0x8#4 x y 0x3#4
  | .addReg x y => formatRR 0x8#4 x y 0x4#4
  | .sub x y => formatRR 0x8#4 x y 0x5#4
  | .shr x => formatRR 0x8#4 x 0 0x6#4
  | .subn x y => formatRR 0x8#4 x y 0x7#4
  | .shl x => formatRR 0x8#4 x 0 0xE#4
  | .sneReg x y => formatRR 0x9#4 x y 0x0#4
  | .ldI nnn => formatA 0xA#4 nnn
  | .jpV0 nnn => formatA 0xB#4 nnn
  | .rnd x kk => formatRI 0xC#4 x kk
  | .drw x y n => formatRR 0xD#4 x y (BitVec.ofNat 4 n)
  | .skp x => formatRI 0xE#4 x 0x9E#8
  | .sknp x => formatRI 0xE#4 x 0xA1#8
  | .ldVxDT x => formatRI 0xF#4 x 0x07#8
  | .ldVxK x => formatRI 0xF#4 x 0x0A#8
  | .ldDT x => formatRI 0xF#4 x 0x15#8
  | .ldST x => formatRI 0xF#4 x 0x18#8
  | .addI x => formatRI 0xF#4 x 0x1E#8
  | .ldF x => formatRI 0xF#4 x 0x29#8
  | .ldB x => formatRI 0xF#4 x 0x33#8
  | .storeRegs x => formatRI 0xF#4 x 0x55#8
  | .loadRegs x => formatRI 0xF#4 x 0x65#8

/-- A word as it is stored, the byte of the lower address first (20_memory.md R46). -/
def bytesOfWord (w : Word) : List Byte := [w.extractLsb' 8 8, w.extractLsb' 0 8]

/-- The bytes of an instruction as they are stored. -/
def encodeBytes (i : Instr) : List Byte := bytesOfWord (encode i)

/-! ## The opcode map as the spec's table (R63) -/

/-- One row of the opcode map: a word w selects it when (w & mask) = match. -/
structure OpRow where
  mask : Word
  pat : Word
  mnemonic : String
  deriving DecidableEq, Repr

/-- The word selects the row (R63). -/
def OpRow.selects (r : OpRow) (w : Word) : Bool := (w &&& r.mask) == r.pat

/-- The mask of rows 7 (5xy0) and 19 (9xy0), the only ones P6 changes (R64). -/
def regPairMask : DecodeStrict → Word
  | .strict => 0xF00F#16
  | .loose => 0xF000#16

/-- Rows 1 to 9 of R63. -/
def opcodeRowsLow (p6 : DecodeStrict) : List OpRow :=
  [⟨0xFFFF#16, 0x00E0#16, "CLS"⟩, ⟨0xFFFF#16, 0x00EE#16, "RET"⟩, ⟨0xF000#16, 0x1000#16, "JP_nnn"⟩,
   ⟨0xF000#16, 0x2000#16, "CALL_nnn"⟩, ⟨0xF000#16, 0x3000#16, "SE_Vx__kk"⟩, ⟨0xF000#16, 0x4000#16, "SNE_Vx__kk"⟩,
   ⟨regPairMask p6, 0x5000#16, "SE_Vx__Vy"⟩, ⟨0xF000#16, 0x6000#16, "LD_Vx__kk"⟩,
   ⟨0xF000#16, 0x7000#16, "ADD_Vx__kk"⟩]

/-- Rows 10 to 18 of R63. -/
def opcodeRowsAlu : List OpRow :=
  [⟨0xF00F#16, 0x8000#16, "LD_Vx__Vy"⟩, ⟨0xF00F#16, 0x8001#16, "OR_Vx__Vy"⟩, ⟨0xF00F#16, 0x8002#16, "AND_Vx__Vy"⟩,
   ⟨0xF00F#16, 0x8003#16, "XOR_Vx__Vy"⟩, ⟨0xF00F#16, 0x8004#16, "ADD_Vx__Vy"⟩, ⟨0xF00F#16, 0x8005#16, "SUB_Vx__Vy"⟩,
   ⟨0xF00F#16, 0x8006#16, "SHR_Vx"⟩, ⟨0xF00F#16, 0x8007#16, "SUBN_Vx__Vy"⟩, ⟨0xF00F#16, 0x800E#16, "SHL_Vx"⟩]

/-- Rows 19 to 25 of R63. -/
def opcodeRowsMid (p6 : DecodeStrict) : List OpRow :=
  [⟨regPairMask p6, 0x9000#16, "SNE_Vx__Vy"⟩, ⟨0xF000#16, 0xA000#16, "LD_I__nnn"⟩, ⟨0xF000#16, 0xB000#16, "JP_V0__nnn"⟩,
   ⟨0xF000#16, 0xC000#16, "RND_Vx__kk"⟩, ⟨0xF000#16, 0xD000#16, "DRW_Vx__Vy__n"⟩, ⟨0xF0FF#16, 0xE09E#16, "SKP_Vx"⟩,
   ⟨0xF0FF#16, 0xE0A1#16, "SKNP_Vx"⟩]

/-- Rows 26 to 34 of R63. -/
def opcodeRowsHigh : List OpRow :=
  [⟨0xF0FF#16, 0xF007#16, "LD_Vx__DT"⟩, ⟨0xF0FF#16, 0xF00A#16, "LD_Vx__K"⟩, ⟨0xF0FF#16, 0xF015#16, "LD_DT__Vx"⟩,
   ⟨0xF0FF#16, 0xF018#16, "LD_ST__Vx"⟩, ⟨0xF0FF#16, 0xF01E#16, "ADD_I__Vx"⟩, ⟨0xF0FF#16, 0xF029#16, "LD_F__Vx"⟩,
   ⟨0xF0FF#16, 0xF033#16, "LD_B__Vx"⟩, ⟨0xF0FF#16, 0xF055#16, "LD__I___Vx"⟩, ⟨0xF0FF#16, 0xF065#16, "LD_Vx___I"⟩]

/-- The 34 rows of R63. The decoder above is the switch the source describes; that it selects the row of this table is a
claim (Obligations.DecoderSelectsTheRowOfTheOpcodeMap). -/
def opcodeRows (p6 : DecodeStrict) : List OpRow :=
  opcodeRowsLow p6 ++ opcodeRowsAlu ++ opcodeRowsMid p6 ++ opcodeRowsHigh

/-! ## The host's question: what does the decoder read from a table word? -/

/-- The instruction the decoder reads, under the default P6 = Strict, from the word whose bits are w, stored big-endian. -/
def decodeTableWord (nbits w : Nat) : Option Instr :=
  match decode .strict (bytesOfWord (BitVec.ofNat 16 (w % 2 ^ nbits))) with
  | .ok (i, _) => some i
  | .error _ => none

end Sys2Proof
end

