-- ==== Sys2Proof/Machine/Defaults.lean ====
section
/-! DEFINITION. The default of each parameter (00_scope.md rule R4, 70_reset_and_hazards.md rule R351). -/

namespace Sys2Proof

/-- The standard CHIP-8 hexadecimal font, glyph g at bytes 5g..5g+4 (70_reset_and_hazards.md R351).
PRESUMED: the spec marks these bytes as general knowledge, not in its source (D2, notes/assumptions/2.md). -/
def standardFont : Vector Byte 80 :=
  #v[0xF0, 0x90, 0x90, 0x90, 0xF0,   -- 0
     0x20, 0x60, 0x20, 0x20, 0x70,   -- 1
     0xF0, 0x10, 0xF0, 0x80, 0xF0,   -- 2
     0xF0, 0x10, 0xF0, 0x10, 0xF0,   -- 3
     0x90, 0x90, 0xF0, 0x10, 0x10,   -- 4
     0xF0, 0x80, 0xF0, 0x10, 0xF0,   -- 5
     0xF0, 0x80, 0xF0, 0x90, 0xF0,   -- 6
     0xF0, 0x10, 0x20, 0x40, 0x40,   -- 7
     0xF0, 0x90, 0xF0, 0x90, 0xF0,   -- 8
     0xF0, 0x90, 0xF0, 0x10, 0xF0,   -- 9
     0xF0, 0x90, 0xF0, 0x90, 0x90,   -- A
     0xE0, 0x90, 0xE0, 0x90, 0xE0,   -- B
     0xF0, 0x80, 0x80, 0x80, 0xF0,   -- C
     0xE0, 0x90, 0x90, 0x90, 0xE0,   -- D
     0xF0, 0x80, 0xF0, 0x80, 0xF0,   -- E
     0xF0, 0x80, 0xF0, 0x80, 0x80]   -- F

/-- The default parameters (R4). -/
def Config.default : Config where
  font := standardFont
  vfAliasOrder := .docOrder
  glyphWrite := .fault
  keyIndexOor := .fault
  glyphAddrOor := .formula
  decodeStrict := .strict

end Sys2Proof
end

