-- ==== Sys2Proof/Machine/Memory.lean ====
section
/-! DEFINITION. The 4096-byte memory as plain data (20_memory.md rules R40, R41, R45, R51): the cells that differ from
the reset contents, in one canonical form (notes/assumptions/21.md). -/

namespace Sys2Proof.Machine

/-- The size of the one address space (00_scope.md R3, 20_memory.md R40). -/
def memSize : Nat := 4096

/-- What an unlisted address reads as: the reset contents, the glyph table at 0x000..0x04F and 0 elsewhere
(70_reset_and_hazards.md R350, R351). -/
def resetByte (font : Vector Byte 80) (a : Nat) : Byte :=
  if h : a < 80 then font[a] else 0

/-- Memory: the listed cells. Every other address reads as `resetByte`. -/
abbrev Memory := List Host.Cell

/-- The byte listed at an address, if one is. -/
def Memory.lookup : Memory → Nat → Option Byte
  | [], _ => none
  | (k, b) :: rest, a => if k = a then some b else Memory.lookup rest a

/-- Read one byte (R45). -/
def Memory.read (font : Vector Byte 80) (m : Memory) (a : Nat) : Byte :=
  (Memory.lookup m a).getD (resetByte font a)

/-- List a byte at its place in the order of addresses. -/
def Memory.insert (a : Nat) (b : Byte) : Memory → Memory
  | [] => [(a, b)]
  | (k, c) :: rest =>
    if a < k then (a, b) :: (k, c) :: rest
    else if a = k then (a, b) :: rest
    else (k, c) :: Memory.insert a b rest

/-- Take an address off the list. -/
def Memory.erase (a : Nat) (m : Memory) : Memory := m.filter (fun c => decide (c.1 ≠ a))

/-- Write one byte (R45). Writing what an unlisted address reads as takes the entry off the list. -/
def Memory.write (font : Vector Byte 80) (m : Memory) (a : Nat) (b : Byte) : Memory :=
  if b = resetByte font a then Memory.erase a m else Memory.insert a b m

/-- The canonical form: addresses strictly rising and inside the address space, and no entry equal to what an unlisted
address reads as. -/
abbrev Memory.wf (font : Vector Byte 80) (m : Memory) : Prop :=
  m.Pairwise (fun c d => c.1 < d.1) ∧ ∀ c ∈ m, c.1 < memSize ∧ c.2 ≠ resetByte font c.1

end Sys2Proof.Machine
end

