-- ==== Sys2Proof/Machine/State.lean ====
section
/-! DEFINITION. The state of the block (10_state.md), why a step can stop, and the state after reset
(70_reset_and_hazards.md rule R350). -/

namespace Sys2Proof.Machine

/-- The five causes of a fault (60_exceptions.md R300). An instruction or fetch that raises one LATCHES it: that step
answers a next state whose `fault` field holds the record (40_cycle.md R86). Outcome.fault is answered by `step` alone,
when the latch is already set: the step executes nothing and reports the latched cause again (R87). All are safe where
hardware would go on, since a stopped machine proves nothing about later behaviour (D14, notes/assumptions/9.md). -/
inductive Fault where
  /-- Raised by CALL (2nnn) with SP = 16 (R122). Safe: the machine stops as the spec says. -/
  | stackOverflow
  /-- Raised by RET (00EE) with SP = 0 (R120). Safe: the machine stops as the spec says. -/
  | stackUnderflow
  /-- Raised by fetch, DRW, LD B, LD [I] and LD Vx, [I] when a range runs past 0xFFF (R42, R43, R46). Safe (D7, D8). -/
  | memoryOutOfRange
  /-- Raised by SKP and SKNP with Vx above 15 when P4 = Fault (R190, R191). Safe (D11). -/
  | keyIndexOutOfRange
  /-- Raised by LD B and LD [I] for a write that starts below 0x050 when P3 = Fault (R44). Safe (D10). -/
  | glyphTableWrite
  deriving DecidableEq, Repr

/-- Why the model gives a step no meaning (60_exceptions.md R303). -/
inductive Refusal where
  /-- Raised by an arm of `exec` whose instruction has no meaning yet; no arm is. Safe. -/
  | notModelled (mnemonic : String)
  /-- Raised by 8xy5, 8xy6, 8xy7 and 8xyE with x = 0xF under P2 = Refuse (43_alu.md R139). Safe (D6). -/
  | vfAliasOrder
  /-- Raised by Fx29 with Vx above 15 under P5 = Refuse (44_index_memory.md R172). Safe (D12). -/
  | glyphAddress
  deriving DecidableEq, Repr

/-- What the fault latch records: (cause, pc, op). `pc` is the address the instruction was fetched from, 16 bits and not
reduced; `op` is the instruction word, none for a fetch fault (10_state.md R21, 60_exceptions.md R300). -/
structure FaultRecord where
  cause : Fault
  pc : Word
  op : Option Word
  deriving DecidableEq, Repr

/-- The pixel grid: 32 rows of 64 one-bit pixels, `fb[r][c]` (10_state.md R18). -/
abbrev Grid := Vector (Vector Bool 64) 32

/-- The whole state (10_state.md section 1). -/
structure State where
  /-- The parameters P1..P6 (00_scope.md R4). Written by nothing (notes/assumptions/3.md). -/
  cfg : Config
  /-- V[0..15]; V[15] is VF (R10, R11). -/
  v : Vector Byte 16
  /-- The index register I (R14). -/
  i : Word
  /-- The program counter (R12). -/
  pc : Word
  /-- SP, the count of call-stack entries in use, 0..16 (R15, R16). -/
  sp : Fin 17
  /-- The call stack (R15). -/
  stack : Vector Word 16
  /-- The delay timer DT (R17). -/
  dt : Byte
  /-- The sound timer ST (R17). -/
  st : Byte
  /-- Memory (20_memory.md R40). -/
  mem : Memory
  /-- The display grid (R18). -/
  fb : Grid
  /-- The display changed flag (R19). -/
  changed : Bool
  /-- The keypad register, key[k] = down (R20). -/
  keys : Vector Bool 16
  /-- The fault latch (R21). -/
  fault : Option FaultRecord
  /-- MODEL'S OWN. The `rnd` byte the host supplied with the step in progress (40_cycle.md R89), or none where the host's
  byte is not said: then a draw is a free value (notes/assumptions/16.md). -/
  rndInput : Option Byte
  /-- MODEL'S OWN. How many random bytes have been drawn: what the free value is applied to (notes/assumptions/16.md). -/
  rndDraws : Nat
  deriving DecidableEq, Repr

/-- The state after reset, for any setting of the parameters (70_reset_and_hazards.md R350). -/
def State.resetWith (cfg : Config) : State where
  cfg := cfg
  v := Vector.replicate 16 0
  i := 0
  pc := 0x200
  sp := 0
  stack := Vector.replicate 16 0
  dt := 0
  st := 0
  mem := []
  fb := Vector.replicate 32 (Vector.replicate 64 false)
  changed := false
  keys := Vector.replicate 16 false
  fault := none
  rndInput := none
  rndDraws := 0

/-- The machine right after reset, under the default parameters (R350, R4). -/
def State.reset : State := State.resetWith Config.default

end Sys2Proof.Machine
end

