-- ==== Sys2Proof/Machine/Ops.lean ====
section
/-! DEFINITION. The named operations over registers, memory, the program counter and the stack that the meanings share,
and raising a fault as one operation. -/

namespace Sys2Proof.Machine

/-- What a step or a meaning answers. -/
abbrev Result := Host.Outcome State Fault Refusal

/-! ## Registers -/

/-- Register 15, the flag register (10_state.md R11). -/
def vf : Reg := 15

/-- Read V[x] (R10). -/
def State.getV (s : State) (x : Reg) : Byte := s.v[x]

/-- V[x] <- b (R10). No register is hardwired. -/
def State.setV (s : State) (x : Reg) (b : Byte) : State := { s with v := s.v.set x b }

/-- V[0..x] <- f 0, ..., f x (44_index_memory.md R175). -/
def State.setVUpTo (s : State) (x : Reg) (f : Nat → Byte) : State :=
  { s with v := Vector.ofFn fun r : Reg => if r ≤ x then f r.val else s.v[r] }

/-- V[0], ..., V[x] in order (44_index_memory.md R174). -/
def State.vUpTo (s : State) (x : Reg) : List Byte := s.v.toList.take (x.val + 1)

/-- I <- w (R14). -/
def State.setI (s : State) (w : Word) : State := { s with i := w }

/-- DT <- b (R17). -/
def State.setDT (s : State) (b : Byte) : State := { s with dt := b }

/-- ST <- b (R17). -/
def State.setST (s : State) (b : Byte) : State := { s with st := b }

/-! ## The program counter -/

/-- pc <- w (R12). -/
def State.setPC (s : State) (w : Word) : State := { s with pc := w }

/-- pc <- trunc_16(pc + 2): the advance of every fetched word (40_cycle.md R82). -/
def State.advance (s : State) : State := s.setPC (s.pc + 2)

/-- A skip: pc <- trunc_16(pc + 2), applied to the advanced pc, if the condition holds (42_flow.md R128). -/
def State.skipIf (s : State) (c : Bool) : State := if c then s.setPC (s.pc + 2) else s

/-- pc <- trunc_16(pc + 0xFFFE), which is pc - 2 mod 2^16: back to the instruction in progress (45_keys_timers.md R193,
40_cycle.md R86). -/
def State.rewind (s : State) : State := s.setPC (s.pc - 2)

/-! ## The call stack (10_state.md R15) -/

/-- Push, where SP is below 16: stack[SP] <- w, then SP <- SP + 1. -/
def State.push (s : State) (h : s.sp.val < 16) (w : Word) : State :=
  { s with stack := s.stack.set s.sp.val w h, sp := ⟨s.sp.val + 1, by omega⟩ }

/-- Pop, where SP is above 0: SP <- SP - 1, and the entry stack[SP] is read into pc. The entry keeps its value. -/
def State.popPC (s : State) (h : 0 < s.sp.val) : State :=
  { s with sp := ⟨s.sp.val - 1, by omega⟩, pc := s.stack[s.sp.val - 1]'(by have := s.sp.isLt; omega) }

/-! ## Memory (20_memory.md) -/

/-- MemRead(a, 1) (R45). -/
def State.readByte (s : State) (a : Nat) : Byte := Memory.read s.cfg.font s.mem a

/-- MemWrite(a, 1, b) (R45). -/
def State.writeByte (s : State) (a : Nat) (b : Byte) : State := { s with mem := Memory.write s.cfg.font s.mem a b }

/-- MemRead(base + k, 1) for k in 0..len-1, in order. -/
def State.readBytes (s : State) (base len : Nat) : List Byte := (List.range len).map fun k => s.readByte (base + k)

/-- MemWrite(base + k, 1, bs[k]) for every k, in order. -/
def State.writeBytes : State → Nat → List Byte → State
  | s, _, [] => s
  | s, base, b :: bs => (s.writeByte base b).writeBytes (base + 1) bs

/-- CheckRange(base, len): the cause it raises, if any (R42). The sum is exact; an access of length 0 never faults. -/
def checkRange (base len : Nat) : Option Fault :=
  if 0 < len ∧ 0xFFF < base + len - 1 then some .memoryOutOfRange else none

/-- CheckGlyph(base, len): the cause it raises, if any (R44). -/
def checkGlyph (p3 : GlyphWrite) (base len : Nat) : Option Fault :=
  if p3 = .fault ∧ 0 < len ∧ base < 0x050 then some .glyphTableWrite else none

/-- The checks of an instruction's write, in order: CheckRange, then CheckGlyph (R44, 60_exceptions.md R301). -/
def checkWrite (p3 : GlyphWrite) (base len : Nat) : Option Fault :=
  match checkRange base len with
  | some f => some f
  | none => checkGlyph p3 base len

/-! ## Fetch (20_memory.md R46) -/

/-- FetchAddr = pc mod 4096. -/
def State.fetchAddr (s : State) : Nat := s.pc.toNat % memSize

/-- The instruction word at FetchAddr, big-endian. -/
def State.fetchWord (s : State) : Word := wordOfBytes (s.readByte s.fetchAddr) (s.readByte (s.fetchAddr + 1))

/-! ## Raising a fault (40_cycle.md R86, 60_exceptions.md R300, R302) -/

/-- Set the fault latch to (cause, pc, op), with the pc of this state. -/
def State.latch (s : State) (cause : Fault) (op : Option Word) : State := { s with fault := some ⟨cause, s.pc, op⟩ }

/-- Raise Fault(cause) in the execute phase of i: nothing is committed, the pc advance is undone as well, and the latch
records the cause, the address of the instruction and its word. The word is written as `encode i`: every instruction that
can raise a fault reads its whole word, so that is the word fetched (notes/assumptions/10.md). -/
def State.raise (s : State) (cause : Fault) (i : Instr) : State := s.rewind.latch cause (some (encode i))

/-- Run the checks of instruction i before its first write: the first cause they give is raised, and only if they give
none does the rest of the instruction happen (40_cycle.md R86). -/
def State.checked (s : State) (check : Option Fault) (i : Instr) (rest : State) : Result :=
  match check with
  | some cause => .next (s.raise cause i)
  | none => .next rest

/-! ## The random byte (40_cycle.md R89, 60_exceptions.md R312) -/

/-- The step's rnd input: the host's byte where it is said, a free value where it is not (notes/assumptions/16.md). -/
def State.rndByte (s : State) : Byte := s.rndInput.getD (Config.freeRandom s.rndDraws)

/-- The byte has been used: the next draw is another one. -/
def State.rndTaken (s : State) : State := { s with rndInput := none, rndDraws := s.rndDraws + 1 }

end Sys2Proof.Machine
end

