-- ==== Sys2Proof/Machine/Flags.lean ====
section
/-! DEFINITION. The flag computations (43_alu.md rule R140) and the two ways a result and a flag are written (R139). -/

namespace Sys2Proof.Machine

/-- A flag as the byte it is in VF. -/
def flagByte (f : Bool) : Byte := if f then 1 else 0

/-- Carry of a + b: the exact sum is above 255 (R140). -/
def carry (a b : Byte) : Bool := decide (255 < a.toNat + b.toNat)

/-- No borrow of a - b: a ≥ b (R140). -/
def noBorrow (a b : Byte) : Bool := decide (b.toNat ≤ a.toNat)

/-- The bit SHR shifts out (R140). -/
def lowBit (a : Byte) : Bool := a.getLsbD 0

/-- The bit SHL shifts out (R140). -/
def highBit (a : Byte) : Bool := a.getLsbD 7

/-- WriteResultAndFlag of 8xy4: the result, then the flag, which remains when x = 0xF (R139). -/
def State.writeResultThenFlag (s : State) (x : Reg) (res : Byte) (flg : Bool) : State :=
  (s.setV x res).setV vf (flagByte flg)

/-- The other write order: the flag, then the result, which remains when x = 0xF (R139). -/
def State.writeFlagThenResult (s : State) (x : Reg) (res : Byte) (flg : Bool) : State :=
  (s.setV vf (flagByte flg)).setV x res

/-- WriteResultAndFlag of 8xy5, 8xy6, 8xy7 and 8xyE: when x = 0xF, P2 says what remains (R139). -/
def State.writeAliased (s : State) (x : Reg) (res : Byte) (flg : Bool) : Result :=
  if x = vf then
    match s.cfg.vfAliasOrder with
    | .docOrder => .next (s.writeFlagThenResult x res flg)
    | .flagLast => .next (s.writeResultThenFlag x res flg)
    | .refuse => .refused .vfAliasOrder
  else .next (s.writeResultThenFlag x res flg)

end Sys2Proof.Machine
end

