-- ==== Sys2Proof/Machine/Alu.lean ====
section
/-! DEFINITION. The ALU family (43_alu.md). Results wrap mod 256 (rule R140); operands are read before any write (R85). -/

namespace Sys2Proof.Machine

/-- 6xkk LD Vx, kk (R141). -/
def execLdByte (x : Reg) (kk : Byte) (s : State) : Result := .next (s.setV x kk)

/-- 7xkk ADD Vx, kk (R142): no flag. -/
def execAddByte (x : Reg) (kk : Byte) (s : State) : Result := .next (s.setV x (s.getV x + kk))

/-- 8xy0 LD Vx, Vy (R143). -/
def execLdReg (x y : Reg) (s : State) : Result := .next (s.setV x (s.getV y))

/-- 8xy1 OR Vx, Vy (R144): no flag. -/
def execOrReg (x y : Reg) (s : State) : Result := .next (s.setV x (s.getV x ||| s.getV y))

/-- 8xy2 AND Vx, Vy (R145): no flag. -/
def execAndReg (x y : Reg) (s : State) : Result := .next (s.setV x (s.getV x &&& s.getV y))

/-- 8xy3 XOR Vx, Vy (R146): no flag. -/
def execXorReg (x y : Reg) (s : State) : Result := .next (s.setV x (s.getV x ^^^ s.getV y))

/-- 8xy4 ADD Vx, Vy (R147): the carry is written last. -/
def execAddReg (x y : Reg) (s : State) : Result :=
  .next (s.writeResultThenFlag x (s.getV x + s.getV y) (carry (s.getV x) (s.getV y)))

/-- 8xy5 SUB Vx, Vy (R148). -/
def execSub (x y : Reg) (s : State) : Result :=
  s.writeAliased x (s.getV x - s.getV y) (noBorrow (s.getV x) (s.getV y))

/-- 8xy6 SHR Vx (R149). -/
def execShr (x : Reg) (s : State) : Result := s.writeAliased x (s.getV x >>> 1) (lowBit (s.getV x))

/-- 8xy7 SUBN Vx, Vy (R150). -/
def execSubn (x y : Reg) (s : State) : Result :=
  s.writeAliased x (s.getV y - s.getV x) (noBorrow (s.getV y) (s.getV x))

/-- 8xyE SHL Vx (R151). -/
def execShl (x : Reg) (s : State) : Result := s.writeAliased x (s.getV x <<< 1) (highBit (s.getV x))

/-- Cxkk RND Vx, kk (R152): the step's rnd input, masked. -/
def execRnd (x : Reg) (kk : Byte) (s : State) : Result := .next (s.rndTaken.setV x (s.rndByte &&& kk))

end Sys2Proof.Machine
end

