-- ==== Sys2Proof/Machine/Operands.lean ====
section
/-! DEFINITION. Operand forms: the index base, the key number, the keypad queries, the decimal digits, the zero-extended
address. -/

namespace Sys2Proof.Machine

/-- zext_16(nnn) (30_encoding.md R61). -/
def zextAddr (nnn : Addr) : Word := nnn.setWidth 16

/-- zext_16 of a byte (R61). -/
def zextByte (b : Byte) : Word := b.setWidth 16

/-- IB = I mod 4096, the address an I-indexed access starts at (20_memory.md R43). -/
def State.indexBase (s : State) : Nat := s.i.toNat % memSize

/-- is_down(k) (45_keys_timers.md R196). -/
def State.isDown (s : State) (k : Key) : Bool := s.keys[k]

/-- any_down(): the least k with key[k] = 1, or none (R196). -/
def State.anyDown (s : State) : Option Key := (List.finRange 16).find? s.isDown

/-- The key number a register value names (R190, R191): the value, where it is at most 15; above it, none where P4 = Fault
(KeyIndexOutOfRange) and the low nibble where P4 = Mask. -/
def keyOf (p4 : KeyIndexOor) (b : Byte) : Option Key :=
  if h : b.toNat < 16 then some ⟨b.toNat, h⟩
  else
    match p4 with
    | .fault => none
    | .mask => some ⟨b.toNat % 16, Nat.mod_lt _ (by decide)⟩

/-- The hundreds, tens and units digits of a byte (44_index_memory.md R173). -/
def bcdDigits (b : Byte) : List Byte :=
  [BitVec.ofNat 8 (b.toNat / 100), BitVec.ofNat 8 (b.toNat / 10 % 10), BitVec.ofNat 8 (b.toNat % 10)]

/-- zext_16(b) * 5: the address of glyph b (44_index_memory.md R172). -/
def glyphAddr (b : Byte) : Word := zextByte b * 5

end Sys2Proof.Machine
end

