-- ==== Sys2Proof/Machine/Display.lean ====
section
/-! DEFINITION. The display family (41_display.md): the sprite compositor (rules R101 to R104), CLS (R100), DRW (R105). -/

namespace Sys2Proof.Machine

/-- The all-dark grid. -/
def Grid.clear : Grid := Vector.replicate 32 (Vector.replicate 64 false)

/-- fb[r][c] (10_state.md R18). -/
def Grid.pixel (g : Grid) (r : Fin 32) (c : Fin 64) : Bool := g[r][c]

/-- fb[r][c] <- fb[r][c] ^ 1 (R101). -/
def Grid.flip (g : Grid) (r : Fin 32) (c : Fin 64) : Grid := g.set r (g[r].set c (!g[r][c]))

/-- The target column of a sprite column: (x + col) mod 64 (R102). -/
def targetCol (x : Byte) (col : Nat) : Fin 64 := ⟨(x.toNat + col) % 64, Nat.mod_lt _ (by decide)⟩

/-- The target row of a sprite row: (y + row) mod 32 (R102). -/
def targetRow (y : Byte) (row : Nat) : Fin 32 := ⟨(y.toNat + row) % 32, Nat.mod_lt _ (by decide)⟩

/-- What a sprite bit at column offset col of a byte is: bit 7 is column offset 0 (R101). -/
def spriteBit (b : Byte) (col : Nat) : Bool := b.getLsbD (7 - col)

/-- A grid and the collision bit gathered so far. -/
structure Canvas where
  grid : Grid
  collision : Bool
  deriving DecidableEq, Repr

/-- One sprite bit: a 1 flips its target pixel, and collides if the pixel was 1 (R101, R103). -/
def drawBit (x y b : Byte) (row : Nat) (cv : Canvas) (col : Nat) : Canvas :=
  if spriteBit b col then
    let r := targetRow y row
    let c := targetCol x col
    { grid := cv.grid.flip r c, collision := cv.collision || cv.grid.pixel r c }
  else cv

/-- One sprite byte: its eight bits, most significant first (R101). -/
def drawRow (x y b : Byte) (row : Nat) (cv : Canvas) : Canvas := (List.range 8).foldl (drawBit x y b row) cv

/-- The sprite's bytes, the first at row offset `row` (R101). -/
def drawRows (x y : Byte) : Nat → List Byte → Canvas → Canvas
  | _, [], cv => cv
  | row, b :: bs, cv => drawRows x y (row + 1) bs (drawRow x y b row cv)

/-- draw_sprite(x, y, bytes) on a grid: the new grid and the collision bit (R101). -/
def drawSprite (g : Grid) (x y : Byte) (bytes : List Byte) : Canvas :=
  drawRows x y 0 bytes { grid := g, collision := false }

/-- The display takes a new grid; every clear and every draw sets `changed` (R100, R104). -/
def State.setGrid (s : State) (g : Grid) : State := { s with fb := g, changed := true }

/-- 00E0 CLS (R100). -/
def execCls (s : State) : Result := .next (s.setGrid Grid.clear)

/-- Dxyn DRW Vx, Vy, n (R105). Coordinates and bytes are read before VF is written. -/
def execDrw (x y : Reg) (n : Nat) (s : State) : Result :=
  let cv := drawSprite s.fb (s.getV x) (s.getV y) (s.readBytes s.indexBase n)
  s.checked (checkRange s.indexBase n) (.drw x y n) ((s.setGrid cv.grid).setV vf (flagByte cv.collision))

end Sys2Proof.Machine
end

