-- ==== Sys2Proof/Machine/Flow.lean ====
section
/-! DEFINITION. The control-flow family (42_flow.md). `pc` is the advanced pc of 40_cycle.md rule R82. -/

namespace Sys2Proof.Machine

/-- 00EE RET (R120). -/
def execRet (s : State) : Result :=
  if h : 0 < s.sp.val then .next (s.popPC h) else .next (s.raise .stackUnderflow .ret)

/-- 1nnn JP nnn (R121). -/
def execJp (nnn : Addr) (s : State) : Result := .next (s.setPC (zextAddr nnn))

/-- 2nnn CALL nnn (R122). -/
def execCall (nnn : Addr) (s : State) : Result :=
  if h : s.sp.val < 16 then .next ((s.push h s.pc).setPC (zextAddr nnn))
  else .next (s.raise .stackOverflow (.call nnn))

/-- 3xkk SE Vx, kk (R123). -/
def execSeByte (x : Reg) (kk : Byte) (s : State) : Result := .next (s.skipIf (s.getV x == kk))

/-- 4xkk SNE Vx, kk (R124). -/
def execSneByte (x : Reg) (kk : Byte) (s : State) : Result := .next (s.skipIf (s.getV x != kk))

/-- 5xy0 SE Vx, Vy (R125). -/
def execSeReg (x y : Reg) (s : State) : Result := .next (s.skipIf (s.getV x == s.getV y))

/-- 9xy0 SNE Vx, Vy (R126). -/
def execSneReg (x y : Reg) (s : State) : Result := .next (s.skipIf (s.getV x != s.getV y))

/-- Bnnn JP V0, nnn (R127): the sum is kept unreduced. -/
def execJpV0 (nnn : Addr) (s : State) : Result := .next (s.setPC (zextAddr nnn + zextByte (s.getV 0)))

end Sys2Proof.Machine
end

