-- ==== Sys2Proof/Machine/IndexMemory.lean ====
section
/-! DEFINITION. The index and memory family (44_index_memory.md). Memory accesses start at IB = I mod 4096 (20_memory.md
rule R43); all checks run before the first write; I is not changed by an access (D23). -/

namespace Sys2Proof.Machine

/-- Annn LD I, nnn (R170). -/
def execLdI (nnn : Addr) (s : State) : Result := .next (s.setI (zextAddr nnn))

/-- Fx1E ADD I, Vx (R171): 16-bit wraparound, no flag. -/
def execAddI (x : Reg) (s : State) : Result := .next (s.setI (s.i + zextByte (s.getV x)))

/-- Fx29 LD F, Vx (R172): P5 says what Vx above 15 does. -/
def execLdF (x : Reg) (s : State) : Result :=
  if 15 < (s.getV x).toNat ∧ s.cfg.glyphAddrOor = .refuse then .refused .glyphAddress
  else .next (s.setI (glyphAddr (s.getV x)))

/-- Fx33 LD B, Vx (R173). -/
def execLdB (x : Reg) (s : State) : Result :=
  s.checked (checkWrite s.cfg.glyphWrite s.indexBase 3) (.ldB x) (s.writeBytes s.indexBase (bcdDigits (s.getV x)))

/-- Fx55 LD [I], Vx (R174). -/
def execStoreRegs (x : Reg) (s : State) : Result :=
  s.checked (checkWrite s.cfg.glyphWrite s.indexBase (x.val + 1)) (.storeRegs x) (s.writeBytes s.indexBase (s.vUpTo x))

/-- Fx65 LD Vx, [I] (R175): no glyph check. -/
def execLoadRegs (x : Reg) (s : State) : Result :=
  s.checked (checkRange s.indexBase (x.val + 1)) (.loadRegs x) (s.setVUpTo x fun r => s.readByte (s.indexBase + r))

end Sys2Proof.Machine
end

