-- ==== Sys2Proof/Machine/KeysTimers.lean ====
section
/-! DEFINITION. The keypad and timer family (45_keys_timers.md). -/

namespace Sys2Proof.Machine

/-- Ex9E SKP Vx (R190). -/
def execSkp (x : Reg) (s : State) : Result :=
  match keyOf s.cfg.keyIndexOor (s.getV x) with
  | none => .next (s.raise .keyIndexOutOfRange (.skp x))
  | some k => .next (s.skipIf (s.isDown k))

/-- ExA1 SKNP Vx (R191). -/
def execSknp (x : Reg) (s : State) : Result :=
  match keyOf s.cfg.keyIndexOor (s.getV x) with
  | none => .next (s.raise .keyIndexOutOfRange (.sknp x))
  | some k => .next (s.skipIf (!s.isDown k))

/-- Fx07 LD Vx, DT (R192). -/
def execLdVxDT (x : Reg) (s : State) : Result := .next (s.setV x s.dt)

/-- A key number as a byte. -/
def keyByte (k : Key) : Byte := BitVec.ofNat 8 k.val

/-- Fx0A LD Vx, K (R193): the lowest key down, or back to this instruction. -/
def execLdVxK (x : Reg) (s : State) : Result :=
  match s.anyDown with
  | some k => .next (s.setV x (keyByte k))
  | none => .next s.rewind

/-- Fx15 LD DT, Vx (R194). -/
def execLdDT (x : Reg) (s : State) : Result := .next (s.setDT (s.getV x))

/-- Fx18 LD ST, Vx (R195). -/
def execLdST (x : Reg) (s : State) : Result := .next (s.setST (s.getV x))

end Sys2Proof.Machine
end

