-- ==== Sys2Proof/Machine/Step.lean ====
section
/-! DEFINITION. One step: the instruction cycle (40_cycle.md rule R80), and where the host stores a word to be run next. -/

namespace Sys2Proof.Machine

/-- One instruction cycle (40_cycle.md R80): a latched fault is reported again and nothing happens (R87). The fetch check
latches MemoryOutOfRange with no instruction word (R46, R86). An unknown encoding only advances the pc (R84). A decoded
instruction executes after the advance (R82). -/
def step (s : State) : Host.Outcome State Fault Refusal :=
  match s.fault with
  | some r => .fault r.cause
  | none =>
    match checkRange s.fetchAddr 2 with
    | some cause => .next (s.latch cause none)
    | none =>
      match decodeWord s.cfg.decodeStrict s.fetchWord with
      | .error _ => .next s.advance
      | .ok i => exec i s.advance

/-- The state with the word stored big-endian where the next step fetches. A latched fault is cleared, and a pc from which
no word can be fetched (FetchAddr = 0xFFF) is set to the reset vector: the fetch needs both (notes/assumptions/27.md). -/
def State.withFetchWord (s : State) (nbits w : Nat) : State :=
  let s1 := { s with fault := none }
  let s2 := if s1.fetchAddr = 0xFFF then s1.setPC 0x200 else s1
  s2.writeBytes s2.fetchAddr (bytesOfWord (BitVec.ofNat 16 (w % 2 ^ nbits)))

end Sys2Proof.Machine
end

