-- ==== Sys2Proof/Machine/Transactions.lean ====
section
/-! DEFINITION. The block's host interface: the eight atomic transactions of 60_exceptions.md rule R313, and a run of them
with the refusal mark of R303. `step` with the host's rnd byte is one of them. -/

namespace Sys2Proof.Machine

/-- The numeric code of a cause (60_exceptions.md R300). -/
def Fault.code : Fault → Nat
  | .stackOverflow => 1
  | .stackUnderflow => 2
  | .memoryOutOfRange => 3
  | .keyIndexOutOfRange => 4
  | .glyphTableWrite => 5

/-- The result of a step transaction: Ok or Fault(cause) (40_cycle.md R88), or the model's refusal (R303). -/
inductive StepResult where
  | ok
  | fault (cause : Fault)
  | refused (why : Refusal)
  deriving DecidableEq, Repr

/-- The host puts its rnd byte on the step's input (40_cycle.md R89). -/
def State.offerRnd (s : State) (rnd : Byte) : State := { s with rndInput := some rnd }

/-- The step is over, and its rnd input with it. -/
def State.dropRnd (s : State) : State := { s with rndInput := none }

/-- What the host is told of a step that left this state: the cause where the latch is set, Ok where it is not (R86, R88). -/
def State.stepResult (s : State) : StepResult :=
  match s.fault with
  | none => .ok
  | some r => .fault r.cause

/-- The step transaction with its rnd input (40_cycle.md R80, R89; 60_exceptions.md R312). A refused step changes no state
(R303). -/
def stepWith (rnd : Byte) (s : State) : State × StepResult :=
  match step (s.offerRnd rnd) with
  | .next t => (t.dropRnd, t.stepResult)
  | .fault cause => (s, .fault cause)
  | .refused why => (s, .refused why)

/-- One less, or 0 (60_exceptions.md R307). -/
def decrement (b : Byte) : Byte := if 0 < b.toNat then b - 1 else 0

/-- tick(): both timers count down, each stopping at 0 (R307). -/
def tick (s : State) : State := { s with dt := decrement s.dt, st := decrement s.st }

/-- key_set(k, d) (R311). A key number above 15 is no transaction of the model (D26). -/
def keySet (k : Key) (down : Bool) (s : State) : State := { s with keys := s.keys.set k down }

/-- clear_changed() (R310). -/
def clearChanged (s : State) : State := { s with changed := false }

/-- load(bytes): checked before any write; none is LoadError, the state unchanged (70_reset_and_hazards.md R352). -/
def load (bytes : List Byte) (s : State) : Option State :=
  if memSize < 0x200 + bytes.length then none else some (s.writeBytes 0x200 bytes)

/-- reset(): every state element to its reset value (R350). The parameters are no state of the block and stay, and the
model's count of draws goes on, so that a draw after a reset is not one from before it (notes/assumptions/31.md). -/
def resetTx (s : State) : State := { State.resetWith s.cfg with rndDraws := s.rndDraws }

/-- The launch of a program: reset, then one successful load (70_reset_and_hazards.md R353). -/
def launch (cfg : Config) (image : List Byte) : Option State := load image (State.resetWith cfg)

/-- The transactions of the host interface (60_exceptions.md R313). -/
inductive Transaction where
  | reset
  | load (bytes : List Byte)
  | step (rnd : Byte)
  | tick
  | keySet (k : Key) (down : Bool)
  | readDisplay
  | clearChanged
  | readFault
  deriving DecidableEq, Repr

/-- What a transaction answers the host (R313). -/
inductive TxResult where
  | none
  | loadOk
  | loadError
  | step (r : StepResult)
  | display (fb : Grid) (changed : Bool)
  | latch (fault : Option FaultRecord)
  deriving DecidableEq, Repr

/-- One transaction, completed before the next begins (R313). It is also done whether or not the fault latch is set
(R307, R352). -/
def transact (t : Transaction) (s : State) : State × TxResult :=
  match t with
  | .reset => (resetTx s, .none)
  | .load bytes =>
    match load bytes s with
    | some s' => (s', .loadOk)
    | none => (s, .loadError)
  | .step rnd => ((stepWith rnd s).1, .step (stepWith rnd s).2)
  | .tick => (tick s, .none)
  | .keySet k down => (keySet k down s, .none)
  | .readDisplay => (s, .display s.fb s.changed)
  | .clearChanged => (clearChanged s, .none)
  | .readFault => (s, .latch s.fault)

/-- The refusal a result carries, if any. -/
def TxResult.refusal : TxResult → Option Refusal
  | .step (.refused why) => some why
  | .none | .loadOk | .loadError | .step .ok | .step (.fault _) | .display _ _ | .latch _ => Option.none

/-- A run: the block's state and the refusal mark, which a refused step sets and nothing clears (R303). -/
structure Run where
  state : State
  refusal : Option Refusal
  deriving DecidableEq, Repr

/-- One transaction of a run. -/
def Run.transact (r : Run) (t : Transaction) : Run :=
  let out := Sys2Proof.Machine.transact t r.state
  { state := out.1, refusal := r.refusal.or out.2.refusal }

/-- The host issues transactions one at a time, in any order and any number (R313, R314). -/
def Run.transactAll (r : Run) (ts : List Transaction) : Run := ts.foldl Run.transact r

end Sys2Proof.Machine
end

