-- ==== Sys2Proof/Safety.lean ====
section
/-! DEFINITION. The terms claims use: the parts of the state and what keeps them, the running block and what it fetches,
the fault table of 60_exceptions.md rule R300 as conditions, safe runs, and the invariants. -/

namespace Sys2Proof.Machine

/-! ## Parts of the state -/

/-- The parts of the state (10_state.md section 1), as claims name them. -/
inductive Part where
  | cfg | v | i | pc | stack | dt | st | mem | grid | changed | keys | fault | random
  deriving DecidableEq, Repr

/-- The part reads the same in both states; memory is compared by reading every address. -/
def Part.Kept (s t : State) : Part → Prop
  | .cfg => t.cfg = s.cfg
  | .v => ∀ r : Reg, t.getV r = s.getV r
  | .i => t.i = s.i
  | .pc => t.pc = s.pc
  | .stack => t.sp = s.sp ∧ t.stack = s.stack
  | .dt => t.dt = s.dt
  | .st => t.st = s.st
  | .mem => ∀ a, t.readByte a = s.readByte a
  | .grid => t.fb = s.fb
  | .changed => t.changed = s.changed
  | .keys => t.keys = s.keys
  | .fault => t.fault = s.fault
  | .random => t.rndInput = s.rndInput ∧ t.rndDraws = s.rndDraws

/-- Every part but those named is kept. -/
def KeptExcept (ps : List Part) (s t : State) : Prop := ∀ p, p ∉ ps → p.Kept s t

/-- Every register but those named is kept. -/
def RegsKeptExcept (rs : List Reg) (s t : State) : Prop := ∀ r, r ∉ rs → t.getV r = s.getV r

/-- Every byte outside base .. base + len - 1 reads as before. -/
def MemKeptOutside (base len : Nat) (s t : State) : Prop :=
  ∀ a, (a < base ∨ base + len ≤ a) → t.readByte a = s.readByte a

/-! ## Running and fetching -/

/-- The fault latch is none: a step runs an instruction cycle (40_cycle.md R80). -/
abbrev State.Running (s : State) : Prop := s.fault = none

/-- A step of the running block fetches a word that decodes to i (20_memory.md R46, 30_encoding.md R64). -/
abbrev State.Fetches (s : State) (i : Instr) : Prop :=
  s.Running ∧ s.fetchAddr < 0xFFF ∧ decodeWord s.cfg.decodeStrict s.fetchWord = .ok i

/-! ## When an instruction faults or is refused, written from the tables of the spec -/

/-- An access of len bytes at IB runs past 0xFFF (20_memory.md R42, R43). -/
def State.outOfRange (s : State) (len : Nat) : Bool := decide (0 < len ∧ 0xFFF < s.i.toNat % 4096 + len - 1)

/-- A write at IB starts in the glyph table and P3 = Fault (20_memory.md R44). -/
def State.hitsGlyphs (s : State) : Bool :=
  decide (s.cfg.glyphWrite = .fault ∧ s.i.toNat % 4096 < 0x050)

/-- The fault table of 60_exceptions.md R300, read as the cause instruction i raises in the execute phase at s. -/
def faultOf (i : Instr) (s : State) : Option Fault :=
  match i with
  | .call _ => if s.sp.val = 16 then some .stackOverflow else none
  | .ret => if s.sp.val = 0 then some .stackUnderflow else none
  | .drw _ _ n => if s.outOfRange n then some .memoryOutOfRange else none
  | .ldB _ =>
    if s.outOfRange 3 then some .memoryOutOfRange else if s.hitsGlyphs then some .glyphTableWrite else none
  | .storeRegs x =>
    if s.outOfRange (x.val + 1) then some .memoryOutOfRange
    else if s.hitsGlyphs then some .glyphTableWrite else none
  | .loadRegs x => if s.outOfRange (x.val + 1) then some .memoryOutOfRange else none
  | .skp x | .sknp x =>
    if 15 < (s.getV x).toNat ∧ s.cfg.keyIndexOor = .fault then some .keyIndexOutOfRange else none
  | .cls | .jp _ | .seByte _ _ | .sneByte _ _ | .seReg _ _ | .ldByte _ _ | .addByte _ _ | .ldReg _ _ | .orReg _ _
  | .andReg _ _ | .xorReg _ _ | .addReg _ _ | .sub _ _ | .shr _ | .subn _ _ | .shl _ | .sneReg _ _ | .ldI _ | .jpV0 _
  | .rnd _ _ | .ldVxDT _ | .ldVxK _ | .ldDT _ | .ldST _ | .addI _ | .ldF _ => none

/-- The two refusals of 60_exceptions.md R303: P2 = Refuse (43_alu.md R139) and P5 = Refuse (44_index_memory.md R172). -/
def refusalOf (i : Instr) (s : State) : Option Refusal :=
  match i with
  | .sub x _ | .shr x | .subn x _ | .shl x =>
    if x = 15 ∧ s.cfg.vfAliasOrder = .refuse then some .vfAliasOrder else none
  | .ldF x => if 15 < (s.getV x).toNat ∧ s.cfg.glyphAddrOor = .refuse then some .glyphAddress else none
  | .cls | .ret | .jp _ | .call _ | .seByte _ _ | .sneByte _ _ | .seReg _ _ | .ldByte _ _ | .addByte _ _ | .ldReg _ _
  | .orReg _ _ | .andReg _ _ | .xorReg _ _ | .addReg _ _ | .sneReg _ _ | .ldI _ | .jpV0 _ | .rnd _ _ | .drw _ _ _
  | .skp _ | .sknp _ | .ldVxDT _ | .ldVxK _ | .ldDT _ | .ldST _ | .addI _ | .ldB _ | .storeRegs _ | .loadRegs _ => none

/-! ## Which parts an instruction may write (10_state.md section 1, the column "written by") -/

/-- The parts instruction i may write when it does not fault. -/
def mayWrite : Instr → List Part
  | .cls => [.grid, .changed]
  | .drw _ _ _ => [.grid, .changed, .v]
  | .ret | .call _ => [.pc, .stack]
  | .jp _ | .jpV0 _ | .seByte _ _ | .sneByte _ _ | .seReg _ _ | .sneReg _ _ | .skp _ | .sknp _ => [.pc]
  | .ldByte _ _ | .addByte _ _ | .ldReg _ _ | .orReg _ _ | .andReg _ _ | .xorReg _ _ | .addReg _ _ | .sub _ _ | .shr _
  | .subn _ _ | .shl _ | .ldVxDT _ | .loadRegs _ => [.v]
  | .rnd _ _ => [.v, .random]
  | .ldVxK _ => [.v, .pc]
  | .ldI _ | .addI _ | .ldF _ => [.i]
  | .ldDT _ => [.dt]
  | .ldST _ => [.st]
  | .ldB _ | .storeRegs _ => [.mem]

/-- The instructions that write VF as a flag (10_state.md R11). -/
def writesFlag : Instr → Bool
  | .addReg _ _ | .sub _ _ | .subn _ _ | .shr _ | .shl _ | .drw _ _ _ => true
  | .cls | .ret | .jp _ | .call _ | .seByte _ _ | .sneByte _ _ | .seReg _ _ | .ldByte _ _ | .addByte _ _ | .ldReg _ _
  | .orReg _ _ | .andReg _ _ | .xorReg _ _ | .sneReg _ _ | .ldI _ | .jpV0 _ | .rnd _ _ | .skp _ | .sknp _ | .ldVxDT _
  | .ldVxK _ | .ldDT _ | .ldST _ | .addI _ | .ldF _ | .ldB _ | .storeRegs _ | .loadRegs _ => false

/-- V[x] is a register the instruction names as its destination, or one that Fx65 loads (10_state.md R11). -/
def namesDestination (r : Reg) : Instr → Bool
  | .ldByte x _ | .addByte x _ | .ldReg x _ | .orReg x _ | .andReg x _ | .xorReg x _ | .addReg x _ | .sub x _ | .shr x
  | .subn x _ | .shl x | .rnd x _ | .ldVxDT x | .ldVxK x => decide (r = x)
  | .loadRegs x => decide (r ≤ x)
  | .cls | .ret | .jp _ | .call _ | .seByte _ _ | .sneByte _ _ | .seReg _ _ | .sneReg _ _ | .ldI _ | .jpV0 _ | .drw _ _ _
  | .skp _ | .sknp _ | .ldDT _ | .ldST _ | .addI _ | .ldF _ | .ldB _ | .storeRegs _ => false

/-! ## Sprites, in closed form (41_display.md R101, R102) -/

/-- The sprite has a 1 that lands on pixel (r, c): some row and column offset inside it map to (r, c) and its bit there is 1. -/
def spriteCovers (x y : Byte) (bytes : List Byte) (r : Fin 32) (c : Fin 64) : Bool :=
  (List.range bytes.length).any fun row => (List.range 8).any fun col =>
    decide ((y.toNat + row) % 32 = r.val) && decide ((x.toNat + col) % 64 = c.val) &&
      (bytes.getD row 0).getLsbD (7 - col)

/-! ## Safe runs -/

/-- A run of n steps that meets no fault and no refusal. -/
def SafeRun (n : Nat) (s : State) : Prop := ∃ t, Sys2Proof.core.run n s = .next t ∧ t.fault = none

/-! ## Invariants -/

/-- Memory is in its canonical form. -/
abbrev State.MemCanonical (s : State) : Prop := Memory.wf s.cfg.font s.mem

/-- The glyph table holds the font (20_memory.md R41, 70_reset_and_hazards.md R351). -/
def State.GlyphsIntact (s : State) : Prop := ∀ a, a < 80 → s.readByte a = resetByte s.cfg.font a

end Sys2Proof.Machine
end

