-- ==== Sys2Proof/Certificates/Slice0/Obligations.lean ====
section
/-! DEFINITION. The statements for the provers. Each docstring names the rule or section of spec/ it formalises. A rule
that the spec marks [decision: D<n>] is the spec's own choice and no word of its source: a statement that rests on one is
'derived' and says so. -/

open Sys2Proof Sys2Proof.Machine

/-! ## The instruction cycle and faults (40_cycle.md, 60_exceptions.md) -/

/-- 40_cycle.md R80, R82, R83 and 20_memory.md R46: the word at pc mod 4096, big-endian, is decoded, the pc advances by 2,
and the instruction executes on the advanced state. -/
def Obligations.StepRunsTheDecodedInstruction : Prop :=
  ∀ (s : State) (i : Instr), s.Running → s.pc.toNat % 4096 < 0xFFF →
    decodeWord s.cfg.decodeStrict (s.readByte (s.pc.toNat % 4096) ++ s.readByte (s.pc.toNat % 4096 + 1)) = .ok i →
    step s = exec i { s with pc := s.pc + 2 }

/-- 40_cycle.md R84. -/
def Obligations.UnknownEncodingIsANoOp : Prop :=
  ∀ (s : State) (e : DecodeError), s.Running → s.fetchAddr < 0xFFF →
    decodeWord s.cfg.decodeStrict s.fetchWord = .error e →
    step s = .next { s with pc := s.pc + 2 } ∧ ∀ rnd, (stepWith rnd s).2 = .ok

/-- 20_memory.md R46 (decision D8) and 40_cycle.md R86 (decision D14): a fetch at 0xFFF latches MemoryOutOfRange with no
instruction word. -/
def Obligations.FetchAtTheTopLatchesMemoryOutOfRange : Prop :=
  ∀ s : State, s.Running → s.pc.toNat % 4096 = 0xFFF →
    step s = .next { s with fault := some { cause := .memoryOutOfRange, pc := s.pc, op := none } }

/-- 40_cycle.md R87 (decision D14): with the latch set a step executes nothing and reports the latched cause, however
often it is issued. -/
def Obligations.LatchedStepExecutesNothing : Prop :=
  ∀ (s : State) (r : FaultRecord), s.fault = some r →
    (∀ rnd, stepWith rnd s = (s, .fault r.cause)) ∧ ∀ n, Sys2Proof.core.run (n + 1) s = .fault r.cause

/-- 40_cycle.md R86, 60_exceptions.md R300, R302 (decision D14): a step that latches a fault commits nothing else, and the
latch holds the pc of the step's start and the word fetched, or none for a fetch fault. -/
def Obligations.FaultingStepCommitsNothing : Prop :=
  ∀ (s t : State) (r : FaultRecord), s.Running → step s = .next t → t.fault = some r →
    t = { s with fault := some r } ∧ r.pc = s.pc ∧
    ((s.fetchAddr = 0xFFF ∧ r.op = none) ∨ (s.fetchAddr < 0xFFF ∧ r.op = some s.fetchWord))

/-- 60_exceptions.md R300, R301, R302, R303 and 40_cycle.md R86 (decisions D6, D7, D10, D11, D12, D14, D16): an instruction
is refused exactly where P2 or P5 refuse it, raises exactly the cause the fault table gives, and otherwise completes with the
latch still none. That a fault is answered as a next state which commits nothing, with the pc advance undone and the latch
set, is R86 and R302 (decision D14, notes/assumptions/9.md); that the recorded word is `encode i` is the model's inference
(notes/assumptions/10.md). -/
def Obligations.InstructionsFaultExactlyAsTheFaultTableSays : Prop :=
  ∀ (i : Instr) (s : State), s.Running →
    (∀ r, refusalOf i s = some r → exec i s = .refused r) ∧
    (refusalOf i s = none → ∀ f, faultOf i s = some f →
      exec i s = .next { s with
        pc := s.pc - 2
        fault := some { cause := f, pc := s.pc - 2, op := some (encode i) } }) ∧
    (refusalOf i s = none → faultOf i s = none → ∃ t, exec i s = .next t ∧ t.Running)

/-- 60_exceptions.md R303, 40_cycle.md R86: where P2 and P5 do not refuse (the defaults), every step of the running block
answers a next state. That next state may be one with a fault newly latched: the model answers a faulting step so (decision
D14, notes/assumptions/9.md). -/
def Obligations.RunningStepAnswersNextUnlessParametersRefuse : Prop :=
  ∀ s : State, s.Running → s.cfg.vfAliasOrder ≠ .refuse → s.cfg.glyphAddrOor ≠ .refuse → ∃ t, step s = .next t

/-- 40_cycle.md R88, R86, 60_exceptions.md R302, R303 (decision D14): the result of a step transaction is Ok exactly when
the latch is none after it, Fault(cause) when it holds that cause, and a refused step changes nothing. -/
def Obligations.StepResultNamesTheLatchedCause : Prop :=
  ∀ (rnd : Byte) (s : State),
    match (stepWith rnd s).2 with
    | .ok => s.Running ∧ (stepWith rnd s).1.Running
    | .fault c => ∃ r, (stepWith rnd s).1.fault = some r ∧ r.cause = c ∧
        (∀ r0, s.fault = some r0 → r = r0 ∧ (stepWith rnd s).1 = s)
    | .refused _ => s.Running ∧ (stepWith rnd s).1 = s

/-! ## Whole-machine rules and invariants -/

/-- 20_memory.md R40, R42, R45: a step keeps memory in its canonical form, so no byte outside 0x000..0xFFF is ever
listed. The canonical form is the model's (notes/assumptions/21.md). -/
def Obligations.StepKeepsMemoryCanonical : Prop :=
  ∀ s t : State, s.MemCanonical → step s = .next t → t.MemCanonical

/-- 70_reset_and_hazards.md R350, R351: the reset state meets the invariants, for every setting of the parameters. That no
fault is latched is R350's row marked decision D14 (notes/assumptions/15.md); the canonical form of memory is the model's
(notes/assumptions/21.md). -/
def Obligations.ResetMeetsTheInvariants : Prop :=
  ∀ c : Config, (State.resetWith c).MemCanonical ∧ (State.resetWith c).GlyphsIntact ∧ (State.resetWith c).Running

/-- 20_memory.md R41, R44 (decision D10): under P3 = Fault no host transaction, a step among them, changes the glyph
table. -/
def Obligations.GlyphTableIsNeverOverwritten : Prop :=
  ∀ (tx : Transaction) (s : State), s.cfg.glyphWrite = .fault → s.GlyphsIntact → (transact tx s).1.GlyphsIntact

/-- 60_exceptions.md R307, R310, R311, R313 and 70_reset_and_hazards.md R350, R352 (decisions D18, D20, D21), 20_memory.md
R40: no host transaction, from any state, changes a parameter, and each keeps memory in its canonical form. The form is the
model's (notes/assumptions/21.md), and so is holding the parameters in the state (notes/assumptions/3.md). -/
def Obligations.TransactionsKeepParametersAndCanonicalMemory : Prop :=
  ∀ (tx : Transaction) (s : State),
    (transact tx s).1.cfg = s.cfg ∧ (s.MemCanonical → (transact tx s).1.MemCanonical)

/-- 60_exceptions.md R313, R314 (decision D18) and 20_memory.md R41 (decision D10): in every run of host transactions from
reset, in any order, the parameters stay, memory is canonical, and under P3 = Fault the glyph table holds the font. The
canonical form is the model's (notes/assumptions/21.md), and so is holding the parameters in the state
(notes/assumptions/3.md). -/
def Obligations.EveryRunKeepsParametersMemoryAndGlyphs : Prop :=
  ∀ (c : Config) (txs : List Transaction),
    let s := (Run.transactAll { state := State.resetWith c, refusal := none } txs).state
    s.cfg = c ∧ s.MemCanonical ∧ (c.glyphWrite = .fault → s.GlyphsIntact)

/-- 10_state.md section 1, the column "written by": an instruction that does not fault changes only the parts named there. -/
def Obligations.OnlyTheNamedPartsChange : Prop :=
  ∀ (i : Instr) (s t : State), s.Running → exec i s = .next t → t.Running → KeptExcept (mayWrite i) s t

/-- 10_state.md R10, R11: a register changes only if the instruction names it as its destination, Fx65 loads it, or it is
VF and the instruction is one of the six that write the flag. -/
def Obligations.RegistersChangeOnlyAsDestinationOrFlag : Prop :=
  ∀ (i : Instr) (s t : State) (r : Reg), exec i s = .next t → namesDestination r i = false →
    (r = 15 → writesFlag i = false) → t.getV r = s.getV r

/-- 10_state.md R19, R20 (decisions D17, D21): no step writes the keypad, and no step clears the changed flag. That no step
writes a parameter of 00_scope.md R4 is the model's choice of holding the parameters in the state
(notes/assumptions/3.md). -/
def Obligations.StepNeverWritesKeypadNorClearsChanged : Prop :=
  ∀ s t : State, step s = .next t → t.keys = s.keys ∧ t.cfg = s.cfg ∧ (s.changed = true → t.changed = true)

/-- 60_exceptions.md R302, 40_cycle.md R87 (decision D14): once a fault is latched, whatever transactions the host issues
short of a reset leave the latch and the registers, I, pc, stack and grid as they are. -/
def Obligations.FaultedBlockStaysStoppedUntilReset : Prop :=
  ∀ (txs : List Transaction) (s : State) (m : Option Refusal) (r : FaultRecord), s.fault = some r →
    Transaction.reset ∉ txs →
    KeptExcept [.dt, .st, .mem, .keys, .changed] s (Run.transactAll { state := s, refusal := m } txs).state

/-- 60_exceptions.md R303 (decisions D6, D12): a run from reset whose parameters P2 and P5 do not refuse never sets the
refusal mark, and a mark once set is kept. -/
def Obligations.RefusalMarkIsKeptAndNeedsAParameter : Prop :=
  (∀ (c : Config) (txs : List Transaction), c.vfAliasOrder ≠ .refuse → c.glyphAddrOor ≠ .refuse →
    (Run.transactAll { state := State.resetWith c, refusal := none } txs).refusal = none) ∧
  ∀ (run : Run) (why : Refusal) (txs : List Transaction), run.refusal = some why →
    (run.transactAll txs).refusal = some why

/-! ## Display (41_display.md) -/

/-- 41_display.md R100. -/
def Obligations.ClsClearsTheScreen : Prop :=
  ∀ s : State, ∃ t, exec .cls s = .next t ∧ (∀ r c, t.fb.pixel r c = false) ∧ t.changed = true ∧
    KeptExcept [.grid, .changed] s t

/-- 41_display.md R101, R102, R103: the compositor's loop, in closed form. A sprite of at most 15 bytes flips exactly the pixels
that a 1 of it lands on with wrap, and collides exactly when one of them was lit. -/
def Obligations.CompositorFlipsExactlyTheCoveredPixels : Prop :=
  ∀ (g : Grid) (x y : Byte) (bytes : List Byte), bytes.length ≤ 15 →
    (∀ r c, (drawSprite g x y bytes).grid.pixel r c = (g.pixel r c ^^ spriteCovers x y bytes r c)) ∧
    ((drawSprite g x y bytes).collision = true ↔ ∃ r c, spriteCovers x y bytes r c = true ∧ g.pixel r c = true)

/-- 41_display.md R105, R104 (decisions D7, D13): DRW whose bytes lie in memory draws the n bytes at IB at (Vx, Vy), read
before VF is written, and VF is the collision. -/
def Obligations.DrwDrawsTheSpriteAtIndex : Prop :=
  ∀ (x y : Reg) (n : Nat) (s : State), n < 16 → (n = 0 ∨ s.indexBase + n ≤ 4096) →
    ∃ t, exec (.drw x y n) s = .next t ∧
      (∀ r c, t.fb.pixel r c =
        (s.fb.pixel r c ^^ spriteCovers (s.getV x) (s.getV y) (s.readBytes s.indexBase n) r c)) ∧
      (t.getV 15 = 1 ∨ t.getV 15 = 0) ∧
      (t.getV 15 = 1 ↔ ∃ r c, spriteCovers (s.getV x) (s.getV y) (s.readBytes s.indexBase n) r c = true ∧
        s.fb.pixel r c = true) ∧
      t.changed = true ∧ RegsKeptExcept [15] s t ∧ KeptExcept [.v, .grid, .changed] s t

/-- 41_display.md R105, its corner case, as R101 and R103 give it: the same DRW twice restores the grid, and the second
draw collides exactly when some covered pixel was dark at first (so on a dark grid, when the sprite has any 1). -/
def Obligations.DrwTwiceRestoresTheGrid : Prop :=
  ∀ (x y : Reg) (n : Nat) (s : State), n < 16 → (n = 0 ∨ s.indexBase + n ≤ 4096) → x ≠ 15 → y ≠ 15 →
    ∃ t u, exec (.drw x y n) s = .next t ∧ exec (.drw x y n) t = .next u ∧ u.fb = s.fb ∧
      (u.getV 15 = 1 ↔ ∃ r c, spriteCovers (s.getV x) (s.getV y) (s.readBytes s.indexBase n) r c = true ∧
        s.fb.pixel r c = false)

/-! ## Control flow (42_flow.md) -/

/-- 42_flow.md R120 (decision D22), 10_state.md R15 (decision D25): RET with SP above 0 pops into pc and the entry keeps
its value. -/
def Obligations.RetPopsTheCallStackIntoPc : Prop :=
  ∀ s : State, s.sp ≠ 0 →
    ∃ t, exec .ret s = .next t ∧ t.sp.val + 1 = s.sp.val ∧ (∀ j : Fin 16, j.val = t.sp.val → t.pc = s.stack[j]) ∧
      t.stack = s.stack ∧ KeptExcept [.pc, .stack] s t

/-- 42_flow.md R121, with its corner cases: a jump to its own address is an endless loop, and a jump to 0xFFF is legal but
the next fetch faults (20_memory.md R46, decision D8). -/
def Obligations.JpJumpsToItsAddress : Prop :=
  (∀ (nnn : Addr) (s : State), ∃ t, exec (.jp nnn) s = .next t ∧ t.pc.toNat = nnn.toNat ∧ KeptExcept [.pc] s t) ∧
  (∀ (nnn : Addr) (s : State), s.Fetches (.jp nnn) → s.pc.toNat = nnn.toNat → step s = .next s) ∧
  (∀ s : State, s.Running → ∃ t u, exec (.jp 0xFFF) s = .next t ∧ step t = .next u ∧
    u.fault = some { cause := .memoryOutOfRange, pc := 0xFFF, op := none })

/-- 42_flow.md R122 (decision D22): CALL with SP below 16 pushes the advanced pc and jumps. -/
def Obligations.CallPushesTheAdvancedPc : Prop :=
  ∀ (nnn : Addr) (s : State), s.sp.val < 16 →
    ∃ t, exec (.call nnn) s = .next t ∧ t.sp.val = s.sp.val + 1 ∧
      (∀ j : Fin 16, t.stack[j] = if j.val = s.sp.val then s.pc else s.stack[j]) ∧
      t.pc.toNat = nnn.toNat ∧ KeptExcept [.pc, .stack] s t

/-- 42_flow.md R120, R122, 70_reset_and_hazards.md R356 (decision D22): RET resumes at the word after the CALL, at the
call's depth, for every depth below 16. -/
def Obligations.RetResumesAfterTheCall : Prop :=
  ∀ (nnn : Addr) (s : State), s.sp.val < 16 →
    ∃ t u, exec (.call nnn) s = .next t ∧ exec .ret t = .next u ∧ u.pc = s.pc ∧ u.sp = s.sp ∧
      (∀ j : Fin 16, j.val < s.sp.val → u.stack[j] = s.stack[j]) ∧ KeptExcept [.stack] s u

/-- 42_flow.md R123, R124, R128: SE and SNE with an immediate add 2 to the advanced pc, or leave it. -/
def Obligations.SkipsCompareARegisterWithAnImmediate : Prop :=
  ∀ (x : Reg) (kk : Byte) (s : State),
    (∃ t, exec (.seByte x kk) s = .next t ∧ (t.pc = if s.getV x = kk then s.pc + 2 else s.pc) ∧ KeptExcept [.pc] s t) ∧
    (∃ t, exec (.sneByte x kk) s = .next t ∧ (t.pc = if s.getV x ≠ kk then s.pc + 2 else s.pc) ∧ KeptExcept [.pc] s t)

/-- 42_flow.md R125, R126, R128: SE and SNE with two registers; x = y always skips SE and never SNE. -/
def Obligations.SkipsCompareTwoRegisters : Prop :=
  ∀ (x y : Reg) (s : State),
    (∃ t, exec (.seReg x y) s = .next t ∧ (t.pc = if s.getV x = s.getV y then s.pc + 2 else s.pc) ∧ KeptExcept [.pc] s t) ∧
    (∃ t, exec (.sneReg x y) s = .next t ∧ (t.pc = if s.getV x ≠ s.getV y then s.pc + 2 else s.pc) ∧ KeptExcept [.pc] s t)

/-- 42_flow.md R127 (decision D9): the sum of nnn and V0 is kept in pc unreduced. -/
def Obligations.JpV0AddsV0ToItsAddress : Prop :=
  ∀ (nnn : Addr) (s : State),
    ∃ t, exec (.jpV0 nnn) s = .next t ∧ t.pc.toNat = nnn.toNat + (s.getV 0).toNat ∧ KeptExcept [.pc] s t

/-! ## Arithmetic, logic and random (43_alu.md) -/

/-- 43_alu.md R141, R142: the immediate, or the sum mod 256; no flag, whichever x is. -/
def Obligations.ImmediatesLoadAndAddWithoutFlag : Prop :=
  ∀ (x : Reg) (kk : Byte) (s : State),
    (∃ t, exec (.ldByte x kk) s = .next t ∧ t.getV x = kk ∧ RegsKeptExcept [x] s t ∧ KeptExcept [.v] s t) ∧
    (∃ t, exec (.addByte x kk) s = .next t ∧ (t.getV x).toNat = ((s.getV x).toNat + kk.toNat) % 256 ∧
      RegsKeptExcept [x] s t ∧ KeptExcept [.v] s t)

/-- 43_alu.md R143, R144, R145, R146: the copy and the bitwise operations, bit by bit; no flag, whichever x is. -/
def Obligations.MoveAndLogicWithoutFlag : Prop :=
  ∀ (x y : Reg) (s : State),
    (∃ t, exec (.ldReg x y) s = .next t ∧ t.getV x = s.getV y ∧ RegsKeptExcept [x] s t ∧ KeptExcept [.v] s t) ∧
    (∃ t, exec (.orReg x y) s = .next t ∧
      (∀ j, j < 8 → (t.getV x).getLsbD j = ((s.getV x).getLsbD j || (s.getV y).getLsbD j)) ∧
      RegsKeptExcept [x] s t ∧ KeptExcept [.v] s t) ∧
    (∃ t, exec (.andReg x y) s = .next t ∧
      (∀ j, j < 8 → (t.getV x).getLsbD j = ((s.getV x).getLsbD j && (s.getV y).getLsbD j)) ∧
      RegsKeptExcept [x] s t ∧ KeptExcept [.v] s t) ∧
    (∃ t, exec (.xorReg x y) s = .next t ∧
      (∀ j, j < 8 → (t.getV x).getLsbD j = ((s.getV x).getLsbD j ^^ (s.getV y).getLsbD j)) ∧
      RegsKeptExcept [x] s t ∧ KeptExcept [.v] s t)

/-- 43_alu.md R147: the sum mod 256, then VF = carry, which remains when x = 0xF. -/
def Obligations.AddRegistersWritesSumThenCarry : Prop :=
  ∀ (x y : Reg) (s : State),
    ∃ t, exec (.addReg x y) s = .next t ∧
      (x ≠ 15 → (t.getV x).toNat = ((s.getV x).toNat + (s.getV y).toNat) % 256) ∧
      (t.getV 15 = if 255 < (s.getV x).toNat + (s.getV y).toNat then 1 else 0) ∧
      RegsKeptExcept [x, 15] s t ∧ KeptExcept [.v] s t

/-- 43_alu.md R148, R150 for x other than 0xF: the difference mod 256 and VF = no borrow, from the operands before any
write (R85, decision D5). -/
def Obligations.SubtractsWriteDifferenceAndNoBorrow : Prop :=
  ∀ (x y : Reg) (s : State), x ≠ 15 →
    (∃ t, exec (.sub x y) s = .next t ∧
      (t.getV x).toNat = ((s.getV x).toNat + 256 - (s.getV y).toNat) % 256 ∧
      (t.getV 15 = if (s.getV y).toNat ≤ (s.getV x).toNat then 1 else 0) ∧
      RegsKeptExcept [x, 15] s t ∧ KeptExcept [.v] s t) ∧
    (∃ t, exec (.subn x y) s = .next t ∧
      (t.getV x).toNat = ((s.getV y).toNat + 256 - (s.getV x).toNat) % 256 ∧
      (t.getV 15 = if (s.getV x).toNat ≤ (s.getV y).toNat then 1 else 0) ∧
      RegsKeptExcept [x, 15] s t ∧ KeptExcept [.v] s t)

/-- 43_alu.md R149, R151 for x other than 0xF: halving and doubling mod 256, VF = the bit shifted out. -/
def Obligations.ShiftsWriteResultAndBitShiftedOut : Prop :=
  ∀ (x : Reg) (s : State), x ≠ 15 →
    (∃ t, exec (.shr x) s = .next t ∧ (t.getV x).toNat = (s.getV x).toNat / 2 ∧
      (t.getV 15).toNat = (s.getV x).toNat % 2 ∧ RegsKeptExcept [x, 15] s t ∧ KeptExcept [.v] s t) ∧
    (∃ t, exec (.shl x) s = .next t ∧ (t.getV x).toNat = (s.getV x).toNat * 2 % 256 ∧
      (t.getV 15).toNat = (s.getV x).toNat / 128 ∧ RegsKeptExcept [x, 15] s t ∧ KeptExcept [.v] s t)

/-- 43_alu.md R139 (decision D6): with x = 0xF, 8xy5, 8xy6, 8xy7 and 8xyE leave in VF the result under DocOrder and the flag
under FlagLast, and are refused under Refuse. -/
def Obligations.FlagRegisterAsDestinationFollowsP2 : Prop :=
  ∀ (i : Instr) (y : Reg) (res flg : Nat) (s : State),
    ((i = .sub 15 y ∧ res = ((s.getV 15).toNat + 256 - (s.getV y).toNat) % 256 ∧
        flg = if (s.getV y).toNat ≤ (s.getV 15).toNat then 1 else 0) ∨
      (i = .subn 15 y ∧ res = ((s.getV y).toNat + 256 - (s.getV 15).toNat) % 256 ∧
        flg = if (s.getV 15).toNat ≤ (s.getV y).toNat then 1 else 0) ∨
      (i = .shr 15 ∧ res = (s.getV 15).toNat / 2 ∧ flg = (s.getV 15).toNat % 2) ∨
      (i = .shl 15 ∧ res = (s.getV 15).toNat * 2 % 256 ∧ flg = (s.getV 15).toNat / 128)) →
    (s.cfg.vfAliasOrder = .docOrder →
      ∃ t, exec i s = .next t ∧ (t.getV 15).toNat = res ∧ RegsKeptExcept [15] s t ∧ KeptExcept [.v] s t) ∧
    (s.cfg.vfAliasOrder = .flagLast →
      ∃ t, exec i s = .next t ∧ (t.getV 15).toNat = flg ∧ RegsKeptExcept [15] s t ∧ KeptExcept [.v] s t) ∧
    (s.cfg.vfAliasOrder = .refuse → exec i s = .refused .vfAliasOrder)

/-- 43_alu.md R152, 40_cycle.md R89, 60_exceptions.md R312 (decision D19): Vx is the host's byte, whatever it is, masked by
kk, and so it is after the step transaction that carries the byte; where the byte is not said (notes/assumptions/16.md), some
byte masked by kk. -/
def Obligations.RndMasksTheStepsRandomByte : Prop :=
  ∀ (x : Reg) (kk : Byte) (s : State),
    (∃ t, exec (.rnd x kk) s = .next t ∧ (∃ b, t.getV x = b &&& kk) ∧ RegsKeptExcept [x] s t ∧
      KeptExcept [.v, .random] s t) ∧
    (∀ b, ∃ t, exec (.rnd x kk) (s.offerRnd b) = .next t ∧ t.getV x = b &&& kk) ∧
    (s.Fetches (.rnd x kk) → ∀ rnd, ∃ t, stepWith rnd s = (t, .ok) ∧ t.getV x = rnd &&& kk ∧ t.pc = s.pc + 2 ∧
      RegsKeptExcept [x] s t ∧ KeptExcept [.v, .pc, .random] s t)

/-- 40_cycle.md R89, 60_exceptions.md R312 (decision D19): only Cxkk reads the random byte. The state and the answer of a step
transaction that fetches anything else, or that executes nothing, are the same for every byte the host supplies. -/
def Obligations.OnlyRndReadsTheStepsRandomByte : Prop :=
  ∀ (s : State) (a b : Byte), (∀ x kk, ¬ s.Fetches (.rnd x kk)) → stepWith a s = stepWith b s

/-! ## Index register and memory (44_index_memory.md) -/

/-- 44_index_memory.md R170, R171: I is nnn, or the sum mod 2^16; no flag. -/
def Obligations.IndexIsSetAndAddedTo : Prop :=
  ∀ (nnn : Addr) (x : Reg) (s : State),
    (∃ t, exec (.ldI nnn) s = .next t ∧ t.i.toNat = nnn.toNat ∧ KeptExcept [.i] s t) ∧
    (∃ t, exec (.addI x) s = .next t ∧ t.i.toNat = (s.i.toNat + (s.getV x).toNat) % 65536 ∧ KeptExcept [.i] s t)

/-- 44_index_memory.md R172 (decision D12): I is Vx * 5, also above 15 under P5 = Formula; refused above 15 under Refuse. -/
def Obligations.GlyphAddressIsFiveTimesVx : Prop :=
  ∀ (x : Reg) (s : State),
    ((s.getV x).toNat ≤ 15 ∨ s.cfg.glyphAddrOor = .formula →
      ∃ t, exec (.ldF x) s = .next t ∧ t.i.toNat = (s.getV x).toNat * 5 ∧ KeptExcept [.i] s t) ∧
    (15 < (s.getV x).toNat ∧ s.cfg.glyphAddrOor = .refuse → exec (.ldF x) s = .refused .glyphAddress)

/-- 44_index_memory.md R172, 70_reset_and_hazards.md R351 (source section 8; P1 is any font): for a digit d, the five bytes
at I after LD F are row d of the font. -/
def Obligations.GlyphAddressPointsAtTheDigitsGlyph : Prop :=
  ∀ (x : Reg) (s : State), (s.getV x).toNat ≤ 15 → s.GlyphsIntact →
    ∃ t, exec (.ldF x) s = .next t ∧
      ∀ k (hk : 5 * (s.getV x).toNat + k < 80), k < 5 →
        t.readByte (t.indexBase + k) = s.cfg.font[5 * (s.getV x).toNat + k]

/-- 44_index_memory.md R173, 20_memory.md R43 (decisions D7, D10): where the three bytes at IB may be written, they become
the decimal digits of Vx. -/
def Obligations.BcdStoresTheDecimalDigits : Prop :=
  ∀ (x : Reg) (s : State), s.indexBase + 3 ≤ 4096 → (s.cfg.glyphWrite = .allow ∨ 0x050 ≤ s.indexBase) →
    ∃ t, exec (.ldB x) s = .next t ∧
      (t.readByte s.indexBase).toNat * 100 + (t.readByte (s.indexBase + 1)).toNat * 10 +
        (t.readByte (s.indexBase + 2)).toNat = (s.getV x).toNat ∧
      (t.readByte s.indexBase).toNat ≤ 2 ∧ (t.readByte (s.indexBase + 1)).toNat ≤ 9 ∧
      (t.readByte (s.indexBase + 2)).toNat ≤ 9 ∧
      MemKeptOutside s.indexBase 3 s t ∧ KeptExcept [.mem] s t

/-- 44_index_memory.md R174 (decisions D7, D10, D23): where the range at IB may be written, V0..Vx are stored there and
nothing else changes, I among it. -/
def Obligations.RegisterDumpStoresV0ToVx : Prop :=
  ∀ (x : Reg) (s : State), s.indexBase + x.val + 1 ≤ 4096 →
    (s.cfg.glyphWrite = .allow ∨ 0x050 ≤ s.indexBase) →
    ∃ t, exec (.storeRegs x) s = .next t ∧ (∀ r : Reg, r ≤ x → t.readByte (s.indexBase + r.val) = s.getV r) ∧
      MemKeptOutside s.indexBase (x.val + 1) s t ∧ KeptExcept [.mem] s t

/-- 44_index_memory.md R175 (decisions D7, D23): where the range at IB lies in memory, V0..Vx are loaded from it and nothing
else changes. -/
def Obligations.RegisterLoadReadsV0ToVx : Prop :=
  ∀ (x : Reg) (s : State), s.indexBase + x.val + 1 ≤ 4096 →
    ∃ t, exec (.loadRegs x) s = .next t ∧
      (∀ r : Reg, t.getV r = if r ≤ x then s.readByte (s.indexBase + r.val) else s.getV r) ∧ KeptExcept [.v] s t

/-- 44_index_memory.md R174, R175 (decisions D7, D10, D23): a load after a dump at the same I gives the registers back,
whatever happened to the registers in between. -/
def Obligations.RegisterLoadAfterDumpRestores : Prop :=
  ∀ (x : Reg) (s : State), s.indexBase + x.val + 1 ≤ 4096 →
    (s.cfg.glyphWrite = .allow ∨ 0x050 ≤ s.indexBase) →
    ∃ t, exec (.storeRegs x) s = .next t ∧ ∀ v' : Vector Byte 16,
      ∃ u, exec (.loadRegs x) { t with v := v' } = .next u ∧ (∀ r : Reg, r ≤ x → u.getV r = s.getV r) ∧
        ∀ r : Reg, x < r → u.getV r = v'[r]

/-- 20_memory.md R53, R46 (decisions D7, D8, D10): a word stored by Fx55 is the word the next fetch at it reads. -/
def Obligations.StoredWordIsFetchedNext : Prop :=
  ∀ (x k k' : Reg) (s : State), s.indexBase + x.val + 1 ≤ 4096 →
    (s.cfg.glyphWrite = .allow ∨ 0x050 ≤ s.indexBase) → k'.val = k.val + 1 → k' ≤ x →
    s.pc.toNat % 4096 = s.indexBase + k.val →
    ∃ t, exec (.storeRegs x) s = .next t ∧ t.fetchWord = s.getV k ++ s.getV k'

/-! ## Keypad and timers (45_keys_timers.md) -/

/-- 45_keys_timers.md R190, R191, R196 (decision D11): with Vx at most 15, or under P4 = Mask with Vx's low nibble, the
named key's level decides the skip. -/
def Obligations.SkipsFollowTheNamedKey : Prop :=
  ∀ (x : Reg) (k : Key) (s : State),
    ((s.getV x).toNat = k.val ∨ (s.cfg.keyIndexOor = .mask ∧ (s.getV x).toNat % 16 = k.val)) →
    (∃ t, exec (.skp x) s = .next t ∧ (t.pc = if s.isDown k = true then s.pc + 2 else s.pc) ∧ KeptExcept [.pc] s t) ∧
    (∃ t, exec (.sknp x) s = .next t ∧ (t.pc = if s.isDown k = true then s.pc else s.pc + 2) ∧ KeptExcept [.pc] s t)

/-- 45_keys_timers.md R192, R194, R195: moves between a register and the timers; a delay timer set to 0 stays 0 at a tick. -/
def Obligations.TimersAreReadAndSet : Prop :=
  ∀ (x : Reg) (s : State),
    (∃ t, exec (.ldVxDT x) s = .next t ∧ t.getV x = s.dt ∧ RegsKeptExcept [x] s t ∧ KeptExcept [.v] s t) ∧
    (∃ t, exec (.ldDT x) s = .next t ∧ t.dt = s.getV x ∧ (s.getV x = 0 → (tick t).dt = 0) ∧ KeptExcept [.dt] s t) ∧
    (∃ t, exec (.ldST x) s = .next t ∧ t.st = s.getV x ∧ KeptExcept [.st] s t)

/-- 45_keys_timers.md R193, R196: with keys down, Vx is the lowest of them; with none, pc goes back by 2 and nothing else
happens. -/
def Obligations.WaitForKeyTakesTheLowestKeyOrRewinds : Prop :=
  ∀ (x : Reg) (s : State),
    (∀ k : Key, s.isDown k = true → (∀ j : Key, j < k → s.isDown j = false) →
      ∃ t, exec (.ldVxK x) s = .next t ∧ (t.getV x).toNat = k.val ∧ RegsKeptExcept [x] s t ∧ KeptExcept [.v] s t) ∧
    ((∀ k : Key, s.isDown k = false) →
      ∃ t, exec (.ldVxK x) s = .next t ∧ t.pc.toNat = (s.pc.toNat + 0xFFFE) % 65536 ∧ KeptExcept [.pc] s t)

/-- 45_keys_timers.md R193, 60_exceptions.md R316: the busy-poll. A whole step of LD Vx, K with no key down leaves the state
exactly as it was. -/
def Obligations.WaitingStepLeavesTheStateAsItWas : Prop :=
  ∀ (x : Reg) (s : State), s.Fetches (.ldVxK x) → (∀ k : Key, s.isDown k = false) → step s = .next s

/-! ## The host interface (60_exceptions.md, 70_reset_and_hazards.md) -/

/-- 60_exceptions.md R307: n ticks take n from both timers, each stopping at 0, whether or not a fault is latched, and
change nothing else. -/
def Obligations.TicksCountDownAndStopAtZero : Prop :=
  ∀ (n : Nat) (s : State),
    (tick^[n] s).dt.toNat = s.dt.toNat - n ∧ (tick^[n] s).st.toNat = s.st.toNat - n ∧
    KeptExcept [.dt, .st] s (tick^[n] s)

/-- 70_reset_and_hazards.md R352 (decision D20): an image of at most 3584 bytes is copied to 0x200 and up, a longer one is
rejected before any byte is written. -/
def Obligations.LoadCopiesTheImageOrRejectsIt : Prop :=
  ∀ (bytes : List Byte) (s : State),
    (bytes.length ≤ 3584 →
      ∃ t, transact (.load bytes) s = (t, .loadOk) ∧
        (∀ k (hk : k < bytes.length), t.readByte (0x200 + k) = bytes[k]) ∧
        MemKeptOutside 0x200 bytes.length s t ∧ KeptExcept [.mem] s t) ∧
    (3584 < bytes.length → transact (.load bytes) s = (s, .loadError))

/-- 60_exceptions.md R310, R311 (decisions D21, D26): key_set sets one key, clear_changed clears the flag, and reading the
display or the latch has no side effect. -/
def Obligations.KeypadAndDisplayTransactionsDoOneThing : Prop :=
  ∀ (k : Key) (d : Bool) (s : State),
    ((transact (.keySet k d) s).1.isDown k = d ∧
      (∀ j : Key, j ≠ k → (transact (.keySet k d) s).1.isDown j = s.isDown j) ∧
      KeptExcept [.keys] s (transact (.keySet k d) s).1) ∧
    ((transact .clearChanged s).1.changed = false ∧ KeptExcept [.changed] s (transact .clearChanged s).1) ∧
    transact .readDisplay s = (s, .display s.fb s.changed) ∧ transact .readFault s = (s, .latch s.fault)

/-- 70_reset_and_hazards.md R350, R351 (decisions D2, D14, D17): the value of every state element after reset, for any
font. -/
def Obligations.ResetValueOfEveryElement : Prop :=
  ∀ c : Config,
    (∀ r, (State.resetWith c).getV r = 0) ∧ (State.resetWith c).i = 0 ∧ (State.resetWith c).pc = 0x200 ∧
    (State.resetWith c).sp = 0 ∧ (∀ j : Fin 16, (State.resetWith c).stack[j] = 0) ∧ (State.resetWith c).dt = 0 ∧
    (State.resetWith c).st = 0 ∧ (∀ a (h : a < 80), (State.resetWith c).readByte a = c.font[a]) ∧
    (∀ a, 80 ≤ a → (State.resetWith c).readByte a = 0) ∧ (∀ r k, (State.resetWith c).fb.pixel r k = false) ∧
    (State.resetWith c).changed = false ∧ (∀ k, (State.resetWith c).isDown k = false) ∧
    (State.resetWith c).fault = none ∧ State.reset = State.resetWith Config.default

/-- 60_exceptions.md R313, 70_reset_and_hazards.md R350 (decisions D14, D17): the reset transaction puts every element of the
block in its reset value from any state, a faulted one too. That the parameters stay as they are, and the random input and
its count are left out, is the model's choice (notes/assumptions/3.md, notes/assumptions/31.md). -/
def Obligations.ResetTransactionRestoresEveryElement : Prop :=
  ∀ s : State, KeptExcept [.random] (State.resetWith s.cfg) (transact .reset s).1

/-! ## Encoding (30_encoding.md) -/

/-- 30_encoding.md R60 to R64, R67, R68 (decision D1): decoding the bytes of a well-formed instruction gives it back, with
every operand, under either setting of P6, and the rest of the bytes. -/
def Obligations.DecodeOfEncodeIsTheInstruction : Prop :=
  ∀ (p6 : DecodeStrict) (i : Instr) (rest : List Byte), i.WellFormed →
    decodeWord p6 (encode i) = .ok i ∧ decode p6 (encodeBytes i ++ rest) = .ok (i, rest)

/-- 30_encoding.md R63, R64 (decisions D1, D4): the decoder's switch selects the row of the opcode map that the word's mask
and match select, and is an unknown encoding where no row does; no word selects two rows. -/
def Obligations.DecoderSelectsTheRowOfTheOpcodeMap : Prop :=
  ∀ (p6 : DecodeStrict) (w : Word),
    (∀ i, decodeWord p6 w = .ok i →
      ∃ row, (opcodeRows p6).filter (fun r => r.selects w) = [row] ∧ row.mnemonic = i.mnemonic) ∧
    (∀ e, decodeWord p6 w = .error e →
      e = .unknownEncoding w ∧ (opcodeRows p6).filter (fun r => r.selects w) = [])

/-- 30_encoding.md R61, R63, R64, R68 (decisions D1, D3, D4; notes/assumptions/22.md): under either setting of P6 what a word
decodes to is well-formed, and the word is its encoding, but for the bits that the decoder does not read: the y of 8xy6 and
8xyE, and under P6 = Loose the low nibble of 5xy_ and 9xy_, which the encoder writes as 0. -/
def Obligations.EncodeOfTheDecodedWordIsTheWord : Prop :=
  ∀ (p6 : DecodeStrict) (w : Word) (i : Instr), decodeWord p6 w = .ok i →
    i.WellFormed ∧
    (encode i = w ∨
      (w &&& 0xF00F#16 = 0x8006#16 ∨ w &&& 0xF00F#16 = 0x800E#16) ∧ encode i = w &&& 0xFF0F#16 ∨
      p6 = .loose ∧ (w &&& 0xF000#16 = 0x5000#16 ∨ w &&& 0xF000#16 = 0x9000#16) ∧ encode i = w &&& 0xFFF0#16)

/-- 30_encoding.md R65 (decision D1): the unknown words under P6 = Strict, by top nibble, and under Loose the same without
those of 5 and 9. -/
def Obligations.UnknownWordsAreThoseOfTheTable : Prop :=
  ∀ (p6 : DecodeStrict) (w : Word),
    (∃ e, decodeWord p6 w = .error e) ↔
      (w.toNat / 4096 = 0 ∧ w.toNat ≠ 0x00E0 ∧ w.toNat ≠ 0x00EE) ∨
      (p6 = .strict ∧ (w.toNat / 4096 = 5 ∨ w.toNat / 4096 = 9) ∧ w.toNat % 16 ≠ 0) ∨
      (w.toNat / 4096 = 8 ∧ w.toNat % 16 ∈ [8, 9, 0xA, 0xB, 0xC, 0xD, 0xF]) ∨
      (w.toNat / 4096 = 0xE ∧ w.toNat % 256 ∉ [0x9E, 0xA1]) ∨
      (w.toNat / 4096 = 0xF ∧ w.toNat % 256 ∉ [0x07, 0x0A, 0x15, 0x18, 0x1E, 0x29, 0x33, 0x55, 0x65])

/-- 30_encoding.md R63, R64 (decisions D1, D4), on a few of the spec's own words: 0x00EE, 0x2345, 0x5011 and 0xF60A are
vectors V9, V12, V16 and S7 of 95_test_vectors.md, and 0x7002, 0x8346, 0xD121, 0xF255 and 0xE19E are the examples of R142,
R149, R105, R174 and R190. A sanity check. -/
def Obligations.WordsOfTheSpecDecode : Prop :=
  decodeWord .strict 0x00EE#16 = .ok .ret ∧ decodeWord .strict 0x2345#16 = .ok (.call 0x345) ∧
  decodeWord .strict 0x7002#16 = .ok (.addByte 0 2) ∧ decodeWord .strict 0x8346#16 = .ok (.shr 3) ∧
  decodeWord .strict 0xD121#16 = .ok (.drw 1 2 1) ∧ decodeWord .strict 0xF60A#16 = .ok (.ldVxK 6) ∧
  decodeWord .strict 0xF255#16 = .ok (.storeRegs 2) ∧ decodeWord .strict 0xE19E#16 = .ok (.skp 1) ∧
  decodeWord .loose 0x5011#16 = .ok (.seReg 0 1) ∧
  decodeWord .strict 0x5011#16 = .error (.unknownEncoding 0x5011)
end

