-- ==== Sys2Proof/Laws/Decode.lean ====
section
/-! SUPPORT. The fields of an encoded word are the fields it was made from. -/

namespace Sys2Proof

@[simp] theorem regOf_regBits (x : Reg) : regOf (regBits x) = x := by
  apply Fin.ext
  simp [regOf, regBits]

@[simp] theorem regBits_regOf (b : BitVec 4) : regBits (regOf b) = b := by simp [regBits, regOf]

theorem ofNat4_toNat {n : Nat} (h : n < 16) : (BitVec.ofNat 4 n).toNat = n := by
  simp [Nat.mod_eq_of_lt h]

/-- The two halves of a concatenation, cut out again. -/
theorem extractLsb'_append_low {a b : Nat} (x : BitVec a) (y : BitVec b) : (x ++ y).extractLsb' 0 b = y := by
  apply BitVec.eq_of_getLsbD_eq
  intro i hi
  simp [BitVec.getLsbD_append, hi]

theorem extractLsb'_append_high {a b : Nat} (x : BitVec a) (y : BitVec b) (lo len : Nat) :
    (x ++ y).extractLsb' (b + lo) len = x.extractLsb' lo len := by
  apply BitVec.eq_of_getLsbD_eq
  intro i hi
  have h : ¬(b + lo + i < b) := by omega
  have h2 : b + lo + i - b = lo + i := by omega
  simp [BitVec.getLsbD_append, h, h2]

variable (c : BitVec 4) (nnn : Addr) (x y : Reg) (kk : Byte) (n : BitVec 4)

@[simp] theorem fieldC_formatA : fieldC (formatA c nnn) = c := by
  have h := extractLsb'_append_high c nnn 0 4
  simpa [fieldC, formatA] using h

@[simp] theorem fieldNNN_formatA : fieldNNN (formatA c nnn) = nnn := extractLsb'_append_low c nnn

@[simp] theorem fieldC_formatRI : fieldC (formatRI c x kk) = c := by
  have h := extractLsb'_append_high (c ++ regBits x) kk 4 4
  have h2 := extractLsb'_append_high c (regBits x) 0 4
  simp only [Nat.add_zero] at h2
  simpa [fieldC, formatRI, h2] using h

@[simp] theorem fieldX_formatRI : fieldX (formatRI c x kk) = regBits x := by
  have h := extractLsb'_append_high (c ++ regBits x) kk 0 4
  have h2 := extractLsb'_append_low c (regBits x)
  simpa [fieldX, formatRI, h2] using h

@[simp] theorem fieldKK_formatRI : fieldKK (formatRI c x kk) = kk := extractLsb'_append_low (c ++ regBits x) kk

@[simp] theorem fieldC_formatRR : fieldC (formatRR c x y n) = c := by
  have h := extractLsb'_append_high (c ++ regBits x ++ regBits y) n 8 4
  have h1 := extractLsb'_append_high (c ++ regBits x) (regBits y) 4 4
  have h2 := extractLsb'_append_high c (regBits x) 0 4
  simp only [Nat.reduceAdd, Nat.add_zero] at h h1 h2
  rw [h1, h2] at h
  simpa [fieldC, formatRR] using h

@[simp] theorem fieldX_formatRR : fieldX (formatRR c x y n) = regBits x := by
  have h := extractLsb'_append_high (c ++ regBits x ++ regBits y) n 4 4
  have h1 := extractLsb'_append_high (c ++ regBits x) (regBits y) 0 4
  have h2 := extractLsb'_append_low c (regBits x)
  simp only [Nat.reduceAdd, Nat.add_zero] at h h1 h2
  rw [h1, h2] at h
  exact h

@[simp] theorem fieldY_formatRR : fieldY (formatRR c x y n) = regBits y := by
  have h := extractLsb'_append_high (c ++ regBits x ++ regBits y) n 0 4
  have h1 := extractLsb'_append_low (c ++ regBits x) (regBits y)
  simp only [Nat.add_zero] at h
  rw [h1] at h
  exact h

@[simp] theorem fieldN_formatRR : fieldN (formatRR c x y n) = n :=
  extractLsb'_append_low (c ++ regBits x ++ regBits y) n

/-- The bytes of a word, put together again, are the word. -/
@[simp] theorem wordOfBytes_extract (w : Word) : wordOfBytes (w.extractLsb' 8 8) (w.extractLsb' 0 8) = w := by
  apply BitVec.eq_of_getLsbD_eq
  intro i hi
  simp only [wordOfBytes, BitVec.getLsbD_append, BitVec.getLsbD_extractLsb']
  by_cases h : i < 8
  · simp [h]
  · have h1 : i - 8 < 8 := by omega
    have h2 : 8 + (i - 8) = i := by omega
    simp [h, h1, h2]

end Sys2Proof
end

