-- ==== Sys2Proof/Laws/Memory.lean ====
section
/-! SUPPORT. The laws of memory: read after write, and every operation keeps the canonical form. -/

namespace Sys2Proof.Machine

@[simp] theorem Memory.lookup_nil (a : Nat) : Memory.lookup [] a = none := rfl

theorem Memory.lookup_insert (a : Nat) (b : Byte) (m : Memory) (a' : Nat) :
    Memory.lookup (Memory.insert a b m) a' = if a = a' then some b else Memory.lookup m a' := by
  induction m with
  | nil => simp [Memory.insert, Memory.lookup]
  | cons c rest ih =>
    obtain ⟨k, d⟩ := c
    by_cases h1 : a < k
    · simp [Memory.insert, h1, Memory.lookup]
    · by_cases h2 : a = k
      · subst h2
        by_cases h3 : a = a' <;> simp [Memory.insert, Memory.lookup, h3]
      · by_cases h3 : a = a'
        · subst h3
          have hk : k ≠ a := Ne.symm h2
          simp [Memory.insert, Memory.lookup, h1, h2, ih, hk]
        · simp [Memory.insert, Memory.lookup, h1, h2, h3, ih]

theorem Memory.lookup_erase (a : Nat) (m : Memory) (a' : Nat) :
    Memory.lookup (Memory.erase a m) a' = if a = a' then none else Memory.lookup m a' := by
  induction m with
  | nil => simp [Memory.erase]
  | cons c rest ih =>
    obtain ⟨k, d⟩ := c
    simp only [Memory.erase] at ih
    by_cases hk : k = a
    · subst hk
      by_cases h : k = a' <;> simp [Memory.erase, Memory.lookup, h] at ih ⊢ <;> simp [ih]
    · by_cases h : a = a'
      · subst h; simp [Memory.erase, Memory.lookup, hk] at ih ⊢; simp [ih]
      · simp [Memory.erase, Memory.lookup, hk, h] at ih ⊢; simp [ih]

/-- A read after a write gives the byte written at its address and leaves every other address alone. -/
theorem Memory.read_write (font : Vector Byte 80) (m : Memory) (a : Nat) (b : Byte) (a' : Nat) :
    Memory.read font (Memory.write font m a b) a' = if a' = a then b else Memory.read font m a' := by
  by_cases h : a' = a
  · subst h
    by_cases hb : b = resetByte font a' <;> simp [Memory.write, Memory.read, hb, Memory.lookup_erase, Memory.lookup_insert]
  · have h' : a ≠ a' := fun e => h e.symm
    by_cases hb : b = resetByte font a <;>
      simp [Memory.write, Memory.read, hb, h, Memory.lookup_erase, Memory.lookup_insert, h']

theorem Memory.mem_insert {a : Nat} {b : Byte} {m : Memory} {c : Host.Cell} (h : c ∈ Memory.insert a b m) :
    c = (a, b) ∨ c ∈ m := by
  induction m with
  | nil => simpa [Memory.insert] using h
  | cons d rest ih =>
    obtain ⟨k, e⟩ := d
    unfold Memory.insert at h
    split_ifs at h with h1 h2
    · simpa using h
    · rcases List.mem_cons.1 h with h | h
      · exact .inl h
      · exact .inr (List.mem_cons_of_mem _ h)
    · rcases List.mem_cons.1 h with h | h
      · exact .inr (h ▸ List.mem_cons_self)
      · exact (ih h).imp_right (List.mem_cons_of_mem _)

theorem Memory.insert_pairwise {a : Nat} {b : Byte} {m : Memory} (h : m.Pairwise (fun c d => c.1 < d.1)) :
    (Memory.insert a b m).Pairwise (fun c d => c.1 < d.1) := by
  induction m with
  | nil => simp [Memory.insert]
  | cons d rest ih =>
    obtain ⟨k, e⟩ := d
    obtain ⟨hd, hr⟩ := List.pairwise_cons.1 h
    unfold Memory.insert
    split_ifs with h1 h2
    · refine List.pairwise_cons.2 ⟨fun c hc => ?_, h⟩
      rcases List.mem_cons.1 hc with rfl | hc
      · exact h1
      · exact lt_trans h1 (hd c hc)
    · subst h2
      exact List.pairwise_cons.2 ⟨hd, hr⟩
    · refine List.pairwise_cons.2 ⟨fun c hc => ?_, ih hr⟩
      rcases Memory.mem_insert hc with rfl | hc
      · exact lt_of_le_of_ne (Nat.le_of_not_lt h1) (fun h => h2 h.symm)
      · exact hd c hc

/-- The empty list is in canonical form: memory right after reset is. -/
theorem Memory.wf_nil (font : Vector Byte 80) : Memory.wf font [] := by simp [Memory.wf]

/-- A write inside the address space keeps the canonical form. -/
theorem Memory.write_wf {font : Vector Byte 80} {m : Memory} {a : Nat} {b : Byte} (h : Memory.wf font m)
    (ha : a < memSize) : Memory.wf font (Memory.write font m a b) := by
  unfold Memory.write
  split_ifs with hb
  · exact ⟨h.1.filter _, fun c hc => h.2 c (List.mem_filter.1 hc).1⟩
  · refine ⟨Memory.insert_pairwise h.1, fun c hc => ?_⟩
    rcases Memory.mem_insert hc with rfl | hc
    · exact ⟨ha, hb⟩
    · exact h.2 c hc

end Sys2Proof.Machine
end

