-- ==== Sys2Proof/Laws/State.lean ====
section
/-! SUPPORT. What each update of the state does to each field: one lemma per field per update. -/

namespace Sys2Proof.Machine

variable (s : State)

/-! ### setV -/

@[simp] theorem State.setV_cfg (x : Reg) (b : Byte) : (s.setV x b).cfg = s.cfg := rfl
@[simp] theorem State.setV_v (x : Reg) (b : Byte) : (s.setV x b).v = s.v.set x b := rfl
@[simp] theorem State.setV_i (x : Reg) (b : Byte) : (s.setV x b).i = s.i := rfl
@[simp] theorem State.setV_pc (x : Reg) (b : Byte) : (s.setV x b).pc = s.pc := rfl
@[simp] theorem State.setV_sp (x : Reg) (b : Byte) : (s.setV x b).sp = s.sp := rfl
@[simp] theorem State.setV_stack (x : Reg) (b : Byte) : (s.setV x b).stack = s.stack := rfl
@[simp] theorem State.setV_dt (x : Reg) (b : Byte) : (s.setV x b).dt = s.dt := rfl
@[simp] theorem State.setV_st (x : Reg) (b : Byte) : (s.setV x b).st = s.st := rfl
@[simp] theorem State.setV_mem (x : Reg) (b : Byte) : (s.setV x b).mem = s.mem := rfl
@[simp] theorem State.setV_fb (x : Reg) (b : Byte) : (s.setV x b).fb = s.fb := rfl
@[simp] theorem State.setV_changed (x : Reg) (b : Byte) : (s.setV x b).changed = s.changed := rfl
@[simp] theorem State.setV_keys (x : Reg) (b : Byte) : (s.setV x b).keys = s.keys := rfl
@[simp] theorem State.setV_fault (x : Reg) (b : Byte) : (s.setV x b).fault = s.fault := rfl
@[simp] theorem State.setV_rndInput (x : Reg) (b : Byte) : (s.setV x b).rndInput = s.rndInput := rfl
@[simp] theorem State.setV_rndDraws (x : Reg) (b : Byte) : (s.setV x b).rndDraws = s.rndDraws := rfl

/-! ### setVUpTo -/

@[simp] theorem State.setVUpTo_cfg (x : Reg) (f : Nat → Byte) : (s.setVUpTo x f).cfg = s.cfg := by simp only [State.setVUpTo]
@[simp] theorem State.setVUpTo_v (x : Reg) (f : Nat → Byte) : (s.setVUpTo x f).v = Vector.ofFn fun r : Reg => if r ≤ x then f r.val else s.v[r] := by simp only [State.setVUpTo]
@[simp] theorem State.setVUpTo_i (x : Reg) (f : Nat → Byte) : (s.setVUpTo x f).i = s.i := by simp only [State.setVUpTo]
@[simp] theorem State.setVUpTo_pc (x : Reg) (f : Nat → Byte) : (s.setVUpTo x f).pc = s.pc := by simp only [State.setVUpTo]
@[simp] theorem State.setVUpTo_sp (x : Reg) (f : Nat → Byte) : (s.setVUpTo x f).sp = s.sp := by simp only [State.setVUpTo]
@[simp] theorem State.setVUpTo_stack (x : Reg) (f : Nat → Byte) : (s.setVUpTo x f).stack = s.stack := by simp only [State.setVUpTo]
@[simp] theorem State.setVUpTo_dt (x : Reg) (f : Nat → Byte) : (s.setVUpTo x f).dt = s.dt := by simp only [State.setVUpTo]
@[simp] theorem State.setVUpTo_st (x : Reg) (f : Nat → Byte) : (s.setVUpTo x f).st = s.st := by simp only [State.setVUpTo]
@[simp] theorem State.setVUpTo_mem (x : Reg) (f : Nat → Byte) : (s.setVUpTo x f).mem = s.mem := by simp only [State.setVUpTo]
@[simp] theorem State.setVUpTo_fb (x : Reg) (f : Nat → Byte) : (s.setVUpTo x f).fb = s.fb := by simp only [State.setVUpTo]
@[simp] theorem State.setVUpTo_changed (x : Reg) (f : Nat → Byte) : (s.setVUpTo x f).changed = s.changed := by simp only [State.setVUpTo]
@[simp] theorem State.setVUpTo_keys (x : Reg) (f : Nat → Byte) : (s.setVUpTo x f).keys = s.keys := by simp only [State.setVUpTo]
@[simp] theorem State.setVUpTo_fault (x : Reg) (f : Nat → Byte) : (s.setVUpTo x f).fault = s.fault := by simp only [State.setVUpTo]
@[simp] theorem State.setVUpTo_rndInput (x : Reg) (f : Nat → Byte) : (s.setVUpTo x f).rndInput = s.rndInput := by simp only [State.setVUpTo]
@[simp] theorem State.setVUpTo_rndDraws (x : Reg) (f : Nat → Byte) : (s.setVUpTo x f).rndDraws = s.rndDraws := by simp only [State.setVUpTo]

/-! ### setI -/

@[simp] theorem State.setI_cfg (w : Word) : (s.setI w).cfg = s.cfg := rfl
@[simp] theorem State.setI_v (w : Word) : (s.setI w).v = s.v := rfl
@[simp] theorem State.setI_i (w : Word) : (s.setI w).i = w := rfl
@[simp] theorem State.setI_pc (w : Word) : (s.setI w).pc = s.pc := rfl
@[simp] theorem State.setI_sp (w : Word) : (s.setI w).sp = s.sp := rfl
@[simp] theorem State.setI_stack (w : Word) : (s.setI w).stack = s.stack := rfl
@[simp] theorem State.setI_dt (w : Word) : (s.setI w).dt = s.dt := rfl
@[simp] theorem State.setI_st (w : Word) : (s.setI w).st = s.st := rfl
@[simp] theorem State.setI_mem (w : Word) : (s.setI w).mem = s.mem := rfl
@[simp] theorem State.setI_fb (w : Word) : (s.setI w).fb = s.fb := rfl
@[simp] theorem State.setI_changed (w : Word) : (s.setI w).changed = s.changed := rfl
@[simp] theorem State.setI_keys (w : Word) : (s.setI w).keys = s.keys := rfl
@[simp] theorem State.setI_fault (w : Word) : (s.setI w).fault = s.fault := rfl
@[simp] theorem State.setI_rndInput (w : Word) : (s.setI w).rndInput = s.rndInput := rfl
@[simp] theorem State.setI_rndDraws (w : Word) : (s.setI w).rndDraws = s.rndDraws := rfl

/-! ### setDT -/

@[simp] theorem State.setDT_cfg (b : Byte) : (s.setDT b).cfg = s.cfg := rfl
@[simp] theorem State.setDT_v (b : Byte) : (s.setDT b).v = s.v := rfl
@[simp] theorem State.setDT_i (b : Byte) : (s.setDT b).i = s.i := rfl
@[simp] theorem State.setDT_pc (b : Byte) : (s.setDT b).pc = s.pc := rfl
@[simp] theorem State.setDT_sp (b : Byte) : (s.setDT b).sp = s.sp := rfl
@[simp] theorem State.setDT_stack (b : Byte) : (s.setDT b).stack = s.stack := rfl
@[simp] theorem State.setDT_dt (b : Byte) : (s.setDT b).dt = b := rfl
@[simp] theorem State.setDT_st (b : Byte) : (s.setDT b).st = s.st := rfl
@[simp] theorem State.setDT_mem (b : Byte) : (s.setDT b).mem = s.mem := rfl
@[simp] theorem State.setDT_fb (b : Byte) : (s.setDT b).fb = s.fb := rfl
@[simp] theorem State.setDT_changed (b : Byte) : (s.setDT b).changed = s.changed := rfl
@[simp] theorem State.setDT_keys (b : Byte) : (s.setDT b).keys = s.keys := rfl
@[simp] theorem State.setDT_fault (b : Byte) : (s.setDT b).fault = s.fault := rfl
@[simp] theorem State.setDT_rndInput (b : Byte) : (s.setDT b).rndInput = s.rndInput := rfl
@[simp] theorem State.setDT_rndDraws (b : Byte) : (s.setDT b).rndDraws = s.rndDraws := rfl

/-! ### setST -/

@[simp] theorem State.setST_cfg (b : Byte) : (s.setST b).cfg = s.cfg := rfl
@[simp] theorem State.setST_v (b : Byte) : (s.setST b).v = s.v := rfl
@[simp] theorem State.setST_i (b : Byte) : (s.setST b).i = s.i := rfl
@[simp] theorem State.setST_pc (b : Byte) : (s.setST b).pc = s.pc := rfl
@[simp] theorem State.setST_sp (b : Byte) : (s.setST b).sp = s.sp := rfl
@[simp] theorem State.setST_stack (b : Byte) : (s.setST b).stack = s.stack := rfl
@[simp] theorem State.setST_dt (b : Byte) : (s.setST b).dt = s.dt := rfl
@[simp] theorem State.setST_st (b : Byte) : (s.setST b).st = b := rfl
@[simp] theorem State.setST_mem (b : Byte) : (s.setST b).mem = s.mem := rfl
@[simp] theorem State.setST_fb (b : Byte) : (s.setST b).fb = s.fb := rfl
@[simp] theorem State.setST_changed (b : Byte) : (s.setST b).changed = s.changed := rfl
@[simp] theorem State.setST_keys (b : Byte) : (s.setST b).keys = s.keys := rfl
@[simp] theorem State.setST_fault (b : Byte) : (s.setST b).fault = s.fault := rfl
@[simp] theorem State.setST_rndInput (b : Byte) : (s.setST b).rndInput = s.rndInput := rfl
@[simp] theorem State.setST_rndDraws (b : Byte) : (s.setST b).rndDraws = s.rndDraws := rfl

/-! ### setPC -/

@[simp] theorem State.setPC_cfg (w : Word) : (s.setPC w).cfg = s.cfg := rfl
@[simp] theorem State.setPC_v (w : Word) : (s.setPC w).v = s.v := rfl
@[simp] theorem State.setPC_i (w : Word) : (s.setPC w).i = s.i := rfl
@[simp] theorem State.setPC_pc (w : Word) : (s.setPC w).pc = w := rfl
@[simp] theorem State.setPC_sp (w : Word) : (s.setPC w).sp = s.sp := rfl
@[simp] theorem State.setPC_stack (w : Word) : (s.setPC w).stack = s.stack := rfl
@[simp] theorem State.setPC_dt (w : Word) : (s.setPC w).dt = s.dt := rfl
@[simp] theorem State.setPC_st (w : Word) : (s.setPC w).st = s.st := rfl
@[simp] theorem State.setPC_mem (w : Word) : (s.setPC w).mem = s.mem := rfl
@[simp] theorem State.setPC_fb (w : Word) : (s.setPC w).fb = s.fb := rfl
@[simp] theorem State.setPC_changed (w : Word) : (s.setPC w).changed = s.changed := rfl
@[simp] theorem State.setPC_keys (w : Word) : (s.setPC w).keys = s.keys := rfl
@[simp] theorem State.setPC_fault (w : Word) : (s.setPC w).fault = s.fault := rfl
@[simp] theorem State.setPC_rndInput (w : Word) : (s.setPC w).rndInput = s.rndInput := rfl
@[simp] theorem State.setPC_rndDraws (w : Word) : (s.setPC w).rndDraws = s.rndDraws := rfl

/-! ### advance -/

@[simp] theorem State.advance_cfg : (s.advance).cfg = s.cfg := rfl
@[simp] theorem State.advance_v : (s.advance).v = s.v := rfl
@[simp] theorem State.advance_i : (s.advance).i = s.i := rfl
@[simp] theorem State.advance_pc : (s.advance).pc = s.pc + 2 := rfl
@[simp] theorem State.advance_sp : (s.advance).sp = s.sp := rfl
@[simp] theorem State.advance_stack : (s.advance).stack = s.stack := rfl
@[simp] theorem State.advance_dt : (s.advance).dt = s.dt := rfl
@[simp] theorem State.advance_st : (s.advance).st = s.st := rfl
@[simp] theorem State.advance_mem : (s.advance).mem = s.mem := rfl
@[simp] theorem State.advance_fb : (s.advance).fb = s.fb := rfl
@[simp] theorem State.advance_changed : (s.advance).changed = s.changed := rfl
@[simp] theorem State.advance_keys : (s.advance).keys = s.keys := rfl
@[simp] theorem State.advance_fault : (s.advance).fault = s.fault := rfl
@[simp] theorem State.advance_rndInput : (s.advance).rndInput = s.rndInput := rfl
@[simp] theorem State.advance_rndDraws : (s.advance).rndDraws = s.rndDraws := rfl

/-! ### rewind -/

@[simp] theorem State.rewind_cfg : (s.rewind).cfg = s.cfg := rfl
@[simp] theorem State.rewind_v : (s.rewind).v = s.v := rfl
@[simp] theorem State.rewind_i : (s.rewind).i = s.i := rfl
@[simp] theorem State.rewind_pc : (s.rewind).pc = s.pc - 2 := rfl
@[simp] theorem State.rewind_sp : (s.rewind).sp = s.sp := rfl
@[simp] theorem State.rewind_stack : (s.rewind).stack = s.stack := rfl
@[simp] theorem State.rewind_dt : (s.rewind).dt = s.dt := rfl
@[simp] theorem State.rewind_st : (s.rewind).st = s.st := rfl
@[simp] theorem State.rewind_mem : (s.rewind).mem = s.mem := rfl
@[simp] theorem State.rewind_fb : (s.rewind).fb = s.fb := rfl
@[simp] theorem State.rewind_changed : (s.rewind).changed = s.changed := rfl
@[simp] theorem State.rewind_keys : (s.rewind).keys = s.keys := rfl
@[simp] theorem State.rewind_fault : (s.rewind).fault = s.fault := rfl
@[simp] theorem State.rewind_rndInput : (s.rewind).rndInput = s.rndInput := rfl
@[simp] theorem State.rewind_rndDraws : (s.rewind).rndDraws = s.rndDraws := rfl

/-! ### push -/

@[simp] theorem State.push_cfg (h : s.sp.val < 16) (w : Word) : (s.push h w).cfg = s.cfg := rfl
@[simp] theorem State.push_v (h : s.sp.val < 16) (w : Word) : (s.push h w).v = s.v := rfl
@[simp] theorem State.push_i (h : s.sp.val < 16) (w : Word) : (s.push h w).i = s.i := rfl
@[simp] theorem State.push_pc (h : s.sp.val < 16) (w : Word) : (s.push h w).pc = s.pc := rfl
@[simp] theorem State.push_sp (h : s.sp.val < 16) (w : Word) : (s.push h w).sp = ⟨s.sp.val + 1, by omega⟩ := rfl
@[simp] theorem State.push_stack (h : s.sp.val < 16) (w : Word) : (s.push h w).stack = s.stack.set s.sp.val w h := rfl
@[simp] theorem State.push_dt (h : s.sp.val < 16) (w : Word) : (s.push h w).dt = s.dt := rfl
@[simp] theorem State.push_st (h : s.sp.val < 16) (w : Word) : (s.push h w).st = s.st := rfl
@[simp] theorem State.push_mem (h : s.sp.val < 16) (w : Word) : (s.push h w).mem = s.mem := rfl
@[simp] theorem State.push_fb (h : s.sp.val < 16) (w : Word) : (s.push h w).fb = s.fb := rfl
@[simp] theorem State.push_changed (h : s.sp.val < 16) (w : Word) : (s.push h w).changed = s.changed := rfl
@[simp] theorem State.push_keys (h : s.sp.val < 16) (w : Word) : (s.push h w).keys = s.keys := rfl
@[simp] theorem State.push_fault (h : s.sp.val < 16) (w : Word) : (s.push h w).fault = s.fault := rfl
@[simp] theorem State.push_rndInput (h : s.sp.val < 16) (w : Word) : (s.push h w).rndInput = s.rndInput := rfl
@[simp] theorem State.push_rndDraws (h : s.sp.val < 16) (w : Word) : (s.push h w).rndDraws = s.rndDraws := rfl

/-! ### popPC -/

@[simp] theorem State.popPC_cfg (h : 0 < s.sp.val) : (s.popPC h).cfg = s.cfg := rfl
@[simp] theorem State.popPC_v (h : 0 < s.sp.val) : (s.popPC h).v = s.v := rfl
@[simp] theorem State.popPC_i (h : 0 < s.sp.val) : (s.popPC h).i = s.i := rfl
@[simp] theorem State.popPC_pc (h : 0 < s.sp.val) : (s.popPC h).pc = s.stack[s.sp.val - 1]'(by have := s.sp.isLt; omega) := rfl
@[simp] theorem State.popPC_sp (h : 0 < s.sp.val) : (s.popPC h).sp = ⟨s.sp.val - 1, by omega⟩ := rfl
@[simp] theorem State.popPC_stack (h : 0 < s.sp.val) : (s.popPC h).stack = s.stack := rfl
@[simp] theorem State.popPC_dt (h : 0 < s.sp.val) : (s.popPC h).dt = s.dt := rfl
@[simp] theorem State.popPC_st (h : 0 < s.sp.val) : (s.popPC h).st = s.st := rfl
@[simp] theorem State.popPC_mem (h : 0 < s.sp.val) : (s.popPC h).mem = s.mem := rfl
@[simp] theorem State.popPC_fb (h : 0 < s.sp.val) : (s.popPC h).fb = s.fb := rfl
@[simp] theorem State.popPC_changed (h : 0 < s.sp.val) : (s.popPC h).changed = s.changed := rfl
@[simp] theorem State.popPC_keys (h : 0 < s.sp.val) : (s.popPC h).keys = s.keys := rfl
@[simp] theorem State.popPC_fault (h : 0 < s.sp.val) : (s.popPC h).fault = s.fault := rfl
@[simp] theorem State.popPC_rndInput (h : 0 < s.sp.val) : (s.popPC h).rndInput = s.rndInput := rfl
@[simp] theorem State.popPC_rndDraws (h : 0 < s.sp.val) : (s.popPC h).rndDraws = s.rndDraws := rfl

/-! ### writeByte -/

@[simp] theorem State.writeByte_cfg (a : Nat) (b : Byte) : (s.writeByte a b).cfg = s.cfg := rfl
@[simp] theorem State.writeByte_v (a : Nat) (b : Byte) : (s.writeByte a b).v = s.v := rfl
@[simp] theorem State.writeByte_i (a : Nat) (b : Byte) : (s.writeByte a b).i = s.i := rfl
@[simp] theorem State.writeByte_pc (a : Nat) (b : Byte) : (s.writeByte a b).pc = s.pc := rfl
@[simp] theorem State.writeByte_sp (a : Nat) (b : Byte) : (s.writeByte a b).sp = s.sp := rfl
@[simp] theorem State.writeByte_stack (a : Nat) (b : Byte) : (s.writeByte a b).stack = s.stack := rfl
@[simp] theorem State.writeByte_dt (a : Nat) (b : Byte) : (s.writeByte a b).dt = s.dt := rfl
@[simp] theorem State.writeByte_st (a : Nat) (b : Byte) : (s.writeByte a b).st = s.st := rfl
@[simp] theorem State.writeByte_mem (a : Nat) (b : Byte) : (s.writeByte a b).mem = Memory.write s.cfg.font s.mem a b := rfl
@[simp] theorem State.writeByte_fb (a : Nat) (b : Byte) : (s.writeByte a b).fb = s.fb := rfl
@[simp] theorem State.writeByte_changed (a : Nat) (b : Byte) : (s.writeByte a b).changed = s.changed := rfl
@[simp] theorem State.writeByte_keys (a : Nat) (b : Byte) : (s.writeByte a b).keys = s.keys := rfl
@[simp] theorem State.writeByte_fault (a : Nat) (b : Byte) : (s.writeByte a b).fault = s.fault := rfl
@[simp] theorem State.writeByte_rndInput (a : Nat) (b : Byte) : (s.writeByte a b).rndInput = s.rndInput := rfl
@[simp] theorem State.writeByte_rndDraws (a : Nat) (b : Byte) : (s.writeByte a b).rndDraws = s.rndDraws := rfl

/-! ### setGrid -/

@[simp] theorem State.setGrid_cfg (g : Grid) : (s.setGrid g).cfg = s.cfg := rfl
@[simp] theorem State.setGrid_v (g : Grid) : (s.setGrid g).v = s.v := rfl
@[simp] theorem State.setGrid_i (g : Grid) : (s.setGrid g).i = s.i := rfl
@[simp] theorem State.setGrid_pc (g : Grid) : (s.setGrid g).pc = s.pc := rfl
@[simp] theorem State.setGrid_sp (g : Grid) : (s.setGrid g).sp = s.sp := rfl
@[simp] theorem State.setGrid_stack (g : Grid) : (s.setGrid g).stack = s.stack := rfl
@[simp] theorem State.setGrid_dt (g : Grid) : (s.setGrid g).dt = s.dt := rfl
@[simp] theorem State.setGrid_st (g : Grid) : (s.setGrid g).st = s.st := rfl
@[simp] theorem State.setGrid_mem (g : Grid) : (s.setGrid g).mem = s.mem := rfl
@[simp] theorem State.setGrid_fb (g : Grid) : (s.setGrid g).fb = g := rfl
@[simp] theorem State.setGrid_changed (g : Grid) : (s.setGrid g).changed = true := rfl
@[simp] theorem State.setGrid_keys (g : Grid) : (s.setGrid g).keys = s.keys := rfl
@[simp] theorem State.setGrid_fault (g : Grid) : (s.setGrid g).fault = s.fault := rfl
@[simp] theorem State.setGrid_rndInput (g : Grid) : (s.setGrid g).rndInput = s.rndInput := rfl
@[simp] theorem State.setGrid_rndDraws (g : Grid) : (s.setGrid g).rndDraws = s.rndDraws := rfl

/-! ### latch -/

@[simp] theorem State.latch_cfg (c : Fault) (op : Option Word) : (s.latch c op).cfg = s.cfg := rfl
@[simp] theorem State.latch_v (c : Fault) (op : Option Word) : (s.latch c op).v = s.v := rfl
@[simp] theorem State.latch_i (c : Fault) (op : Option Word) : (s.latch c op).i = s.i := rfl
@[simp] theorem State.latch_pc (c : Fault) (op : Option Word) : (s.latch c op).pc = s.pc := rfl
@[simp] theorem State.latch_sp (c : Fault) (op : Option Word) : (s.latch c op).sp = s.sp := rfl
@[simp] theorem State.latch_stack (c : Fault) (op : Option Word) : (s.latch c op).stack = s.stack := rfl
@[simp] theorem State.latch_dt (c : Fault) (op : Option Word) : (s.latch c op).dt = s.dt := rfl
@[simp] theorem State.latch_st (c : Fault) (op : Option Word) : (s.latch c op).st = s.st := rfl
@[simp] theorem State.latch_mem (c : Fault) (op : Option Word) : (s.latch c op).mem = s.mem := rfl
@[simp] theorem State.latch_fb (c : Fault) (op : Option Word) : (s.latch c op).fb = s.fb := rfl
@[simp] theorem State.latch_changed (c : Fault) (op : Option Word) : (s.latch c op).changed = s.changed := rfl
@[simp] theorem State.latch_keys (c : Fault) (op : Option Word) : (s.latch c op).keys = s.keys := rfl
@[simp] theorem State.latch_fault (c : Fault) (op : Option Word) : (s.latch c op).fault = some ⟨c, s.pc, op⟩ := rfl
@[simp] theorem State.latch_rndInput (c : Fault) (op : Option Word) : (s.latch c op).rndInput = s.rndInput := rfl
@[simp] theorem State.latch_rndDraws (c : Fault) (op : Option Word) : (s.latch c op).rndDraws = s.rndDraws := rfl

/-! ### raise -/

@[simp] theorem State.raise_cfg (c : Fault) (j : Instr) : (s.raise c j).cfg = s.cfg := by simp [State.raise]
@[simp] theorem State.raise_v (c : Fault) (j : Instr) : (s.raise c j).v = s.v := by simp [State.raise]
@[simp] theorem State.raise_i (c : Fault) (j : Instr) : (s.raise c j).i = s.i := by simp [State.raise]
@[simp] theorem State.raise_pc (c : Fault) (j : Instr) : (s.raise c j).pc = s.pc - 2 := by simp [State.raise]
@[simp] theorem State.raise_sp (c : Fault) (j : Instr) : (s.raise c j).sp = s.sp := by simp [State.raise]
@[simp] theorem State.raise_stack (c : Fault) (j : Instr) : (s.raise c j).stack = s.stack := by simp [State.raise]
@[simp] theorem State.raise_dt (c : Fault) (j : Instr) : (s.raise c j).dt = s.dt := by simp [State.raise]
@[simp] theorem State.raise_st (c : Fault) (j : Instr) : (s.raise c j).st = s.st := by simp [State.raise]
@[simp] theorem State.raise_mem (c : Fault) (j : Instr) : (s.raise c j).mem = s.mem := by simp [State.raise]
@[simp] theorem State.raise_fb (c : Fault) (j : Instr) : (s.raise c j).fb = s.fb := by simp [State.raise]
@[simp] theorem State.raise_changed (c : Fault) (j : Instr) : (s.raise c j).changed = s.changed := by simp [State.raise]
@[simp] theorem State.raise_keys (c : Fault) (j : Instr) : (s.raise c j).keys = s.keys := by simp [State.raise]
@[simp] theorem State.raise_fault (c : Fault) (j : Instr) : (s.raise c j).fault = some ⟨c, s.pc - 2, some (encode j)⟩ := by simp [State.raise]
@[simp] theorem State.raise_rndInput (c : Fault) (j : Instr) : (s.raise c j).rndInput = s.rndInput := by simp [State.raise]
@[simp] theorem State.raise_rndDraws (c : Fault) (j : Instr) : (s.raise c j).rndDraws = s.rndDraws := by simp [State.raise]

/-! ### rndTaken -/

@[simp] theorem State.rndTaken_cfg : (s.rndTaken).cfg = s.cfg := rfl
@[simp] theorem State.rndTaken_v : (s.rndTaken).v = s.v := rfl
@[simp] theorem State.rndTaken_i : (s.rndTaken).i = s.i := rfl
@[simp] theorem State.rndTaken_pc : (s.rndTaken).pc = s.pc := rfl
@[simp] theorem State.rndTaken_sp : (s.rndTaken).sp = s.sp := rfl
@[simp] theorem State.rndTaken_stack : (s.rndTaken).stack = s.stack := rfl
@[simp] theorem State.rndTaken_dt : (s.rndTaken).dt = s.dt := rfl
@[simp] theorem State.rndTaken_st : (s.rndTaken).st = s.st := rfl
@[simp] theorem State.rndTaken_mem : (s.rndTaken).mem = s.mem := rfl
@[simp] theorem State.rndTaken_fb : (s.rndTaken).fb = s.fb := rfl
@[simp] theorem State.rndTaken_changed : (s.rndTaken).changed = s.changed := rfl
@[simp] theorem State.rndTaken_keys : (s.rndTaken).keys = s.keys := rfl
@[simp] theorem State.rndTaken_fault : (s.rndTaken).fault = s.fault := rfl
@[simp] theorem State.rndTaken_rndInput : (s.rndTaken).rndInput = none := rfl
@[simp] theorem State.rndTaken_rndDraws : (s.rndTaken).rndDraws = s.rndDraws + 1 := rfl

/-! ### skipIf -/

@[simp] theorem State.skipIf_cfg (c : Bool) : (s.skipIf c).cfg = s.cfg := by cases c <;> rfl
@[simp] theorem State.skipIf_v (c : Bool) : (s.skipIf c).v = s.v := by cases c <;> rfl
@[simp] theorem State.skipIf_i (c : Bool) : (s.skipIf c).i = s.i := by cases c <;> rfl
@[simp] theorem State.skipIf_pc (c : Bool) : (s.skipIf c).pc = if c then s.pc + 2 else s.pc := by cases c <;> rfl
@[simp] theorem State.skipIf_sp (c : Bool) : (s.skipIf c).sp = s.sp := by cases c <;> rfl
@[simp] theorem State.skipIf_stack (c : Bool) : (s.skipIf c).stack = s.stack := by cases c <;> rfl
@[simp] theorem State.skipIf_dt (c : Bool) : (s.skipIf c).dt = s.dt := by cases c <;> rfl
@[simp] theorem State.skipIf_st (c : Bool) : (s.skipIf c).st = s.st := by cases c <;> rfl
@[simp] theorem State.skipIf_mem (c : Bool) : (s.skipIf c).mem = s.mem := by cases c <;> rfl
@[simp] theorem State.skipIf_fb (c : Bool) : (s.skipIf c).fb = s.fb := by cases c <;> rfl
@[simp] theorem State.skipIf_changed (c : Bool) : (s.skipIf c).changed = s.changed := by cases c <;> rfl
@[simp] theorem State.skipIf_keys (c : Bool) : (s.skipIf c).keys = s.keys := by cases c <;> rfl
@[simp] theorem State.skipIf_fault (c : Bool) : (s.skipIf c).fault = s.fault := by cases c <;> rfl
@[simp] theorem State.skipIf_rndInput (c : Bool) : (s.skipIf c).rndInput = s.rndInput := by cases c <;> rfl
@[simp] theorem State.skipIf_rndDraws (c : Bool) : (s.skipIf c).rndDraws = s.rndDraws := by cases c <;> rfl

/-! ### writeBytes -/

@[simp] theorem State.writeBytes_cfg (a : Nat) (bs : List Byte) : (s.writeBytes a bs).cfg = s.cfg := by
  induction bs generalizing s a with
  | nil => rfl
  | cons b bs ih => simp [State.writeBytes, ih]
@[simp] theorem State.writeBytes_v (a : Nat) (bs : List Byte) : (s.writeBytes a bs).v = s.v := by
  induction bs generalizing s a with
  | nil => rfl
  | cons b bs ih => simp [State.writeBytes, ih]
@[simp] theorem State.writeBytes_i (a : Nat) (bs : List Byte) : (s.writeBytes a bs).i = s.i := by
  induction bs generalizing s a with
  | nil => rfl
  | cons b bs ih => simp [State.writeBytes, ih]
@[simp] theorem State.writeBytes_pc (a : Nat) (bs : List Byte) : (s.writeBytes a bs).pc = s.pc := by
  induction bs generalizing s a with
  | nil => rfl
  | cons b bs ih => simp [State.writeBytes, ih]
@[simp] theorem State.writeBytes_sp (a : Nat) (bs : List Byte) : (s.writeBytes a bs).sp = s.sp := by
  induction bs generalizing s a with
  | nil => rfl
  | cons b bs ih => simp [State.writeBytes, ih]
@[simp] theorem State.writeBytes_stack (a : Nat) (bs : List Byte) : (s.writeBytes a bs).stack = s.stack := by
  induction bs generalizing s a with
  | nil => rfl
  | cons b bs ih => simp [State.writeBytes, ih]
@[simp] theorem State.writeBytes_dt (a : Nat) (bs : List Byte) : (s.writeBytes a bs).dt = s.dt := by
  induction bs generalizing s a with
  | nil => rfl
  | cons b bs ih => simp [State.writeBytes, ih]
@[simp] theorem State.writeBytes_st (a : Nat) (bs : List Byte) : (s.writeBytes a bs).st = s.st := by
  induction bs generalizing s a with
  | nil => rfl
  | cons b bs ih => simp [State.writeBytes, ih]
@[simp] theorem State.writeBytes_fb (a : Nat) (bs : List Byte) : (s.writeBytes a bs).fb = s.fb := by
  induction bs generalizing s a with
  | nil => rfl
  | cons b bs ih => simp [State.writeBytes, ih]
@[simp] theorem State.writeBytes_changed (a : Nat) (bs : List Byte) : (s.writeBytes a bs).changed = s.changed := by
  induction bs generalizing s a with
  | nil => rfl
  | cons b bs ih => simp [State.writeBytes, ih]
@[simp] theorem State.writeBytes_keys (a : Nat) (bs : List Byte) : (s.writeBytes a bs).keys = s.keys := by
  induction bs generalizing s a with
  | nil => rfl
  | cons b bs ih => simp [State.writeBytes, ih]
@[simp] theorem State.writeBytes_fault (a : Nat) (bs : List Byte) : (s.writeBytes a bs).fault = s.fault := by
  induction bs generalizing s a with
  | nil => rfl
  | cons b bs ih => simp [State.writeBytes, ih]
@[simp] theorem State.writeBytes_rndInput (a : Nat) (bs : List Byte) : (s.writeBytes a bs).rndInput = s.rndInput := by
  induction bs generalizing s a with
  | nil => rfl
  | cons b bs ih => simp [State.writeBytes, ih]
@[simp] theorem State.writeBytes_rndDraws (a : Nat) (bs : List Byte) : (s.writeBytes a bs).rndDraws = s.rndDraws := by
  induction bs generalizing s a with
  | nil => rfl
  | cons b bs ih => simp [State.writeBytes, ih]

end Sys2Proof.Machine
end

