-- ==== Sys2Proof/Laws/Ops.lean ====
section
/-! SUPPORT. What each shared operation does, said once: registers, memory, checks, flags, operands, the grid. -/

namespace Sys2Proof.Machine

variable (s : State)

/-! ## Registers -/

theorem State.getV_setV (x : Reg) (b : Byte) (r : Reg) : (s.setV x b).getV r = if r = x then b else s.getV r := by
  by_cases h : r = x
  · subst h; simp [State.getV]
  · have hv : x.val ≠ r.val := fun e => h (Fin.ext e.symm)
    simp [State.getV, h, hv]

@[simp] theorem State.getV_setV_self (x : Reg) (b : Byte) : (s.setV x b).getV x = b := by simp [State.getV_setV]

theorem State.getV_setV_ne {x r : Reg} (h : r ≠ x) (b : Byte) : (s.setV x b).getV r = s.getV r := by
  simp [State.getV_setV, h]

theorem State.getV_setVUpTo (x : Reg) (f : Nat → Byte) (r : Reg) :
    (s.setVUpTo x f).getV r = if r ≤ x then f r.val else s.getV r := by
  simp [State.getV]

@[simp] theorem State.vUpTo_length (x : Reg) : (s.vUpTo x).length = x.val + 1 := by
  simp [State.vUpTo]

theorem State.vUpTo_getElem (x : Reg) {k : Nat} (h : k < (s.vUpTo x).length) :
    (s.vUpTo x)[k] = s.getV ⟨k, by have := x.isLt; rw [State.vUpTo_length] at h; omega⟩ := by
  simp [State.vUpTo, State.getV]

/-! Only the register writes change a register. -/

@[simp] theorem State.getV_setI (w : Word) (r : Reg) : (s.setI w).getV r = s.getV r := by simp [State.getV]
@[simp] theorem State.getV_setDT (b : Byte) (r : Reg) : (s.setDT b).getV r = s.getV r := by simp [State.getV]
@[simp] theorem State.getV_setST (b : Byte) (r : Reg) : (s.setST b).getV r = s.getV r := by simp [State.getV]
@[simp] theorem State.getV_setPC (w : Word) (r : Reg) : (s.setPC w).getV r = s.getV r := by simp [State.getV]
@[simp] theorem State.getV_advance (r : Reg) : (s.advance).getV r = s.getV r := by simp [State.getV]
@[simp] theorem State.getV_rewind (r : Reg) : (s.rewind).getV r = s.getV r := by simp [State.getV]
@[simp] theorem State.getV_skipIf (c : Bool) (r : Reg) : (s.skipIf c).getV r = s.getV r := by simp [State.getV]
@[simp] theorem State.getV_push (h : s.sp.val < 16) (w : Word) (r : Reg) : (s.push h w).getV r = s.getV r := by simp [State.getV]
@[simp] theorem State.getV_popPC (h : 0 < s.sp.val) (r : Reg) : (s.popPC h).getV r = s.getV r := by simp [State.getV]
@[simp] theorem State.getV_setGrid (g : Grid) (r : Reg) : (s.setGrid g).getV r = s.getV r := by simp [State.getV]
@[simp] theorem State.getV_latch (c : Fault) (op : Option Word) (r : Reg) : (s.latch c op).getV r = s.getV r := by simp [State.getV]
@[simp] theorem State.getV_raise (c : Fault) (j : Instr) (r : Reg) : (s.raise c j).getV r = s.getV r := by simp [State.getV]
@[simp] theorem State.getV_rndTaken (r : Reg) : (s.rndTaken).getV r = s.getV r := by simp [State.getV]
@[simp] theorem State.getV_writeByte (a : Nat) (b : Byte) (r : Reg) : (s.writeByte a b).getV r = s.getV r := by simp [State.getV]
@[simp] theorem State.getV_writeBytes (a : Nat) (bs : List Byte) (r : Reg) : (s.writeBytes a bs).getV r = s.getV r := by simp [State.getV]

/-! ## Memory -/

theorem State.readByte_of_mem {s t : State} (hc : t.cfg = s.cfg) (hm : t.mem = s.mem) (a : Nat) :
    t.readByte a = s.readByte a := by simp [State.readByte, hc, hm]

/-! Only the memory writes change a byte. -/

@[simp] theorem State.readByte_setV (x : Reg) (b : Byte) (a : Nat) : (s.setV x b).readByte a = s.readByte a := by simp [State.readByte]
@[simp] theorem State.readByte_setVUpTo (x : Reg) (f : Nat → Byte) (a : Nat) : (s.setVUpTo x f).readByte a = s.readByte a := by simp [State.readByte]
@[simp] theorem State.readByte_setI (w : Word) (a : Nat) : (s.setI w).readByte a = s.readByte a := by simp [State.readByte]
@[simp] theorem State.readByte_setDT (b : Byte) (a : Nat) : (s.setDT b).readByte a = s.readByte a := by simp [State.readByte]
@[simp] theorem State.readByte_setST (b : Byte) (a : Nat) : (s.setST b).readByte a = s.readByte a := by simp [State.readByte]
@[simp] theorem State.readByte_setPC (w : Word) (a : Nat) : (s.setPC w).readByte a = s.readByte a := by simp [State.readByte]
@[simp] theorem State.readByte_advance (a : Nat) : (s.advance).readByte a = s.readByte a := by simp [State.readByte]
@[simp] theorem State.readByte_rewind (a : Nat) : (s.rewind).readByte a = s.readByte a := by simp [State.readByte]
@[simp] theorem State.readByte_skipIf (c : Bool) (a : Nat) : (s.skipIf c).readByte a = s.readByte a := by simp [State.readByte]
@[simp] theorem State.readByte_push (h : s.sp.val < 16) (w : Word) (a : Nat) : (s.push h w).readByte a = s.readByte a := by simp [State.readByte]
@[simp] theorem State.readByte_popPC (h : 0 < s.sp.val) (a : Nat) : (s.popPC h).readByte a = s.readByte a := by simp [State.readByte]
@[simp] theorem State.readByte_setGrid (g : Grid) (a : Nat) : (s.setGrid g).readByte a = s.readByte a := by simp [State.readByte]
@[simp] theorem State.readByte_latch (c : Fault) (op : Option Word) (a : Nat) : (s.latch c op).readByte a = s.readByte a := by simp [State.readByte]
@[simp] theorem State.readByte_raise (c : Fault) (j : Instr) (a : Nat) : (s.raise c j).readByte a = s.readByte a := by simp [State.readByte]
@[simp] theorem State.readByte_rndTaken (a : Nat) : (s.rndTaken).readByte a = s.readByte a := by simp [State.readByte]

theorem State.readByte_writeByte (a : Nat) (b : Byte) (a' : Nat) :
    (s.writeByte a b).readByte a' = if a' = a then b else s.readByte a' := Memory.read_write ..

/-- Storing bytes: inside them the byte stored is read, every other address reads as before. -/
theorem State.readByte_writeBytes (a : Nat) (bs : List Byte) (a' : Nat) :
    (s.writeBytes a bs).readByte a' =
      if h : a ≤ a' ∧ a' - a < bs.length then bs[a' - a]'h.2 else s.readByte a' := by
  induction bs generalizing s a with
  | nil => simp [State.writeBytes]
  | cons b bs ih =>
    rw [State.writeBytes, ih]
    by_cases h1 : a + 1 ≤ a' ∧ a' - (a + 1) < bs.length
    · have h2 : a ≤ a' ∧ a' - a < (b :: bs).length := ⟨by omega, by simp; omega⟩
      have h3 : a' - a = a' - (a + 1) + 1 := by omega
      simp only [h1, h2, and_self, dite_true]
      simp [h3]
    · by_cases h2 : a' = a
      · subst h2
        simp [State.readByte_writeByte]
      · have h3 : ¬(a ≤ a' ∧ a' - a < (b :: bs).length) := by simp only [List.length_cons]; omega
        simp only [h1, h3, dite_false]
        simp [State.readByte_writeByte, h2]

theorem State.readByte_writeBytes_outside {a : Nat} {bs : List Byte} {a' : Nat}
    (h : a' < a ∨ a + bs.length ≤ a') : (s.writeBytes a bs).readByte a' = s.readByte a' := by
  rw [State.readByte_writeBytes, dif_neg (by omega)]

@[simp] theorem State.readBytes_length (base len : Nat) : (s.readBytes base len).length = len := by
  simp [State.readBytes]

theorem State.readBytes_getElem (base len k : Nat) (h : k < (s.readBytes base len).length) :
    (s.readBytes base len)[k] = s.readByte (base + k) := by simp [State.readBytes]

/-- Storing bytes inside the address space keeps memory's canonical form. -/
theorem State.writeBytes_wf {s : State} {a : Nat} {bs : List Byte} (h : Memory.wf s.cfg.font s.mem)
    (ha : a + bs.length ≤ memSize) : Memory.wf s.cfg.font (s.writeBytes a bs).mem := by
  induction bs generalizing s a with
  | nil => exact h
  | cons b bs ih =>
    simp only [List.length_cons] at ha
    exact ih (s := s.writeByte a b) (Memory.write_wf h (by omega)) (by omega)

/-! ## Checks and faults -/

theorem checkRange_eq_none {base len : Nat} : checkRange base len = none ↔ len = 0 ∨ base + len ≤ memSize := by
  unfold checkRange memSize
  split_ifs with h
  · simp; omega
  · simp; omega

theorem checkRange_eq_some {base len : Nat} {f : Fault} :
    checkRange base len = some f ↔ f = .memoryOutOfRange ∧ 0 < len ∧ memSize < base + len := by
  unfold checkRange memSize
  split_ifs with h
  · simp only [Option.some.injEq]
    constructor
    · rintro rfl; exact ⟨rfl, h.1, by omega⟩
    · rintro ⟨rfl, -⟩; rfl
  · simp only [false_iff]
    omega

theorem checkGlyph_eq_none {p3 : GlyphWrite} {base len : Nat} :
    checkGlyph p3 base len = none ↔ p3 = .allow ∨ len = 0 ∨ 80 ≤ base := by
  unfold checkGlyph
  cases p3 <;> simp
  omega

theorem checkWrite_eq_none {p3 : GlyphWrite} {base len : Nat} :
    checkWrite p3 base len = none ↔ checkRange base len = none ∧ checkGlyph p3 base len = none := by
  unfold checkWrite
  cases h : checkRange base len <;> simp

/-- Running checks answers a next state, in which the fault is raised or the rest has happened. -/
theorem State.checked_cases {check : Option Fault} {i : Instr} {rest : State} {r : Result}
    (h : s.checked check i rest = r) :
    (∃ f, check = some f ∧ r = .next (s.raise f i)) ∨ (check = none ∧ r = .next rest) := by
  subst h
  cases check with
  | none => exact .inr ⟨rfl, rfl⟩
  | some f => exact .inl ⟨f, rfl, rfl⟩

/-! ## Flags -/

theorem State.getV_writeResultThenFlag (x : Reg) (res : Byte) (flg : Bool) (r : Reg) :
    (s.writeResultThenFlag x res flg).getV r =
      if r = vf then flagByte flg else if r = x then res else s.getV r := by
  simp [State.writeResultThenFlag, State.getV_setV]

theorem State.getV_writeFlagThenResult (x : Reg) (res : Byte) (flg : Bool) (r : Reg) :
    (s.writeFlagThenResult x res flg).getV r =
      if r = x then res else if r = vf then flagByte flg else s.getV r := by
  simp [State.writeFlagThenResult, State.getV_setV]

/-- What writing an aliased result and flag can answer. -/
theorem State.writeAliased_cases {x : Reg} {res : Byte} {flg : Bool} {r : Result}
    (h : s.writeAliased x res flg = r) :
    (x ≠ vf ∧ r = .next (s.writeResultThenFlag x res flg)) ∨
    (x = vf ∧ s.cfg.vfAliasOrder = .docOrder ∧ r = .next (s.writeFlagThenResult x res flg)) ∨
    (x = vf ∧ s.cfg.vfAliasOrder = .flagLast ∧ r = .next (s.writeResultThenFlag x res flg)) ∨
    (x = vf ∧ s.cfg.vfAliasOrder = .refuse ∧ r = .refused .vfAliasOrder) := by
  subst h
  unfold State.writeAliased
  by_cases hx : x = vf
  · cases s.cfg.vfAliasOrder <;> simp [hx]
  · simp [hx]

/-! ## Operands -/

theorem State.indexBase_lt : s.indexBase < memSize := Nat.mod_lt _ (by decide)

theorem State.fetchAddr_lt : s.fetchAddr < memSize := Nat.mod_lt _ (by decide)

theorem State.anyDown_eq_some {k : Key} (h : s.anyDown = some k) :
    s.isDown k = true ∧ ∀ j : Key, j < k → s.isDown j = false := by
  unfold State.anyDown at h
  obtain ⟨hk, as, bs, hl, hn⟩ := List.find?_eq_some_iff_append.1 h
  refine ⟨hk, fun j hj => ?_⟩
  have hs : (as ++ k :: bs).Pairwise (· < ·) := hl ▸ List.pairwise_lt_finRange 16
  have hjm : j ∈ as ++ k :: bs := hl ▸ List.mem_finRange j
  rcases List.mem_append.1 hjm with hja | hjb
  · simpa using hn j hja
  · obtain ⟨_, hp2, _⟩ := List.pairwise_append.1 hs
    rcases List.mem_cons.1 hjb with rfl | hjb
    · exact absurd hj (lt_irrefl _)
    · exact absurd hj (not_lt.2 (le_of_lt ((List.pairwise_cons.1 hp2).1 j hjb)))

theorem State.anyDown_eq_none : s.anyDown = none ↔ ∀ k : Key, s.isDown k = false := by
  simp [State.anyDown, List.find?_eq_none]

theorem keyOf_eq_none {p4 : KeyIndexOor} {b : Byte} : keyOf p4 b = none ↔ 15 < b.toNat ∧ p4 = .fault := by
  unfold keyOf
  by_cases h : b.toNat < 16
  · simp [h]; omega
  · cases p4 <;> simp [h]; omega

theorem keyOf_of_le {p4 : KeyIndexOor} {b : Byte} (h : b.toNat ≤ 15) : keyOf p4 b = some ⟨b.toNat, by omega⟩ := by
  unfold keyOf; simp [show b.toNat < 16 by omega]

/-! ## The grid -/

theorem Grid.pixel_flip (g : Grid) (r : Fin 32) (c : Fin 64) (r' : Fin 32) (c' : Fin 64) :
    (g.flip r c).pixel r' c' = if r' = r ∧ c' = c then !g.pixel r c else g.pixel r' c' := by
  by_cases hr : r' = r
  · subst hr
    by_cases hc : c' = c
    · subst hc; simp [Grid.pixel, Grid.flip]
    · have hv : c.val ≠ c'.val := fun e => hc (Fin.ext e.symm)
      simp [Grid.pixel, Grid.flip, hc, hv]
  · have hv : r.val ≠ r'.val := fun e => hr (Fin.ext e.symm)
    simp [Grid.pixel, Grid.flip, hr, hv]

@[simp] theorem Grid.pixel_clear (r : Fin 32) (c : Fin 64) : Grid.clear.pixel r c = false := by
  simp [Grid.pixel, Grid.clear]

/-- Two grids with the same pixels are the same. -/
theorem Grid.ext {g h : Grid} (e : ∀ r c, g.pixel r c = h.pixel r c) : g = h := by
  apply Vector.ext
  intro r hr
  apply Vector.ext
  intro c hc
  exact e ⟨r, hr⟩ ⟨c, hc⟩

end Sys2Proof.Machine
end

