-- ==== Sys2Proof/Laws/PerInstr.lean ====
section
/-! SUPPORT. Facts about every instruction as syntax, one lemma per constructor. Family EncodeSelectsRow: the word of an
instruction selects the row of the opcode map that has its mnemonic (30_encoding.md R63). -/

namespace Sys2Proof

/-! ## Masks on the formats -/

theorem formatA_and_mask (c : BitVec 4) (nnn : Addr) : formatA c nnn &&& 0xF000#16 = formatA c 0 := by
  have h : (0xF000#16 : BitVec (4 + 12)) = 0xF#4 ++ 0x000#12 := rfl
  have h2 : c &&& 0xF#4 = c := BitVec.and_allOnes (x := c)
  unfold formatA
  rw [h, BitVec.and_append, h2]
  simp

theorem formatRI_and_mask (c : BitVec 4) (x : Reg) (kk : Byte) : formatRI c x kk &&& 0xF000#16 = formatRI c 0 0 := by
  have h : (0xF000#16 : BitVec (4 + 4 + 8)) = 0xF#4 ++ 0x0#4 ++ 0x00#8 := rfl
  have h2 : c &&& 0xF#4 = c := BitVec.and_allOnes (x := c)
  unfold formatRI
  rw [h, BitVec.and_append, BitVec.and_append, h2]
  simp only [BitVec.and_zero]
  rfl

theorem formatR_and_mask (c : BitVec 4) (x : Reg) (kk : Byte) : formatRI c x kk &&& 0xF0FF#16 = formatRI c 0 kk := by
  have h : (0xF0FF#16 : BitVec (4 + 4 + 8)) = 0xF#4 ++ 0x0#4 ++ 0xFF#8 := rfl
  have h2 : c &&& 0xF#4 = c := BitVec.and_allOnes (x := c)
  have h3 : kk &&& 0xFF#8 = kk := BitVec.and_allOnes (x := kk)
  unfold formatRI
  rw [h, BitVec.and_append, BitVec.and_append, h2, h3]
  simp only [BitVec.and_zero]
  rfl

theorem formatRR_and_mask (c : BitVec 4) (x y : Reg) (n : BitVec 4) :
    formatRR c x y n &&& 0xF00F#16 = formatRR c 0 0 n := by
  have h : (0xF00F#16 : BitVec (4 + 4 + 4 + 4)) = 0xF#4 ++ 0x0#4 ++ 0x0#4 ++ 0xF#4 := rfl
  have h2 : c &&& 0xF#4 = c := BitVec.and_allOnes (x := c)
  have h3 : n &&& 0xF#4 = n := BitVec.and_allOnes (x := n)
  unfold formatRR
  rw [h, BitVec.and_append, BitVec.and_append, BitVec.and_append, h2, h3]
  simp only [BitVec.and_zero]
  rfl

theorem formatRRN_and_mask (c : BitVec 4) (x y : Reg) (n : BitVec 4) :
    formatRR c x y n &&& 0xF000#16 = formatRR c 0 0 0 := by
  have h : (0xF000#16 : BitVec (4 + 4 + 4 + 4)) = 0xF#4 ++ 0x0#4 ++ 0x0#4 ++ 0x0#4 := rfl
  have h2 : c &&& 0xF#4 = c := BitVec.and_allOnes (x := c)
  unfold formatRR
  rw [h, BitVec.and_append, BitVec.and_append, BitVec.and_append, h2]
  simp only [BitVec.and_zero]
  rfl

theorem formatRR_and_regPairMask (p6 : DecodeStrict) (c : BitVec 4) (x y : Reg) :
    formatRR c x y 0 &&& regPairMask p6 = formatRR c 0 0 0 := by
  cases p6
  · exact formatRR_and_mask c x y 0
  · exact formatRRN_and_mask c x y 0

/-! ## The family -/

/-- Under either setting of P6, the word of i selects the row of the opcode map with the mnemonic of i. -/
def Laws.EncodeSelectsRow.Statement (i : Instr) : Prop :=
  ∀ p6, ∃ row ∈ opcodeRows p6, row.mnemonic = i.mnemonic ∧ row.selects (encode i) = true

/-- A row of the map whose mnemonic and masked word are those of i. -/
theorem selectsRow_of {i : Instr} (mask : DecodeStrict → Word) (pat : Word)
    (hm : ∀ p6, (⟨mask p6, pat, i.mnemonic⟩ : OpRow) ∈ opcodeRows p6) (h : ∀ p6, encode i &&& mask p6 = pat) :
    Laws.EncodeSelectsRow.Statement i :=
  fun p6 => ⟨⟨mask p6, pat, i.mnemonic⟩, hm p6, rfl, by simp [OpRow.selects, h p6]⟩

end Sys2Proof

namespace Sys2Proof.Laws

theorem EncodeSelectsRow.cls : EncodeSelectsRow.Statement .cls :=
  selectsRow_of (fun _ => 0xFFFF) 0x00E0 (fun p6 => by cases p6 <;> simp [opcodeRows, opcodeRowsLow, opcodeRowsAlu, opcodeRowsMid, opcodeRowsHigh, Instr.mnemonic]) (fun _ => by decide)

theorem EncodeSelectsRow.ret : EncodeSelectsRow.Statement .ret :=
  selectsRow_of (fun _ => 0xFFFF) 0x00EE (fun p6 => by cases p6 <;> simp [opcodeRows, opcodeRowsLow, opcodeRowsAlu, opcodeRowsMid, opcodeRowsHigh, Instr.mnemonic]) (fun _ => by decide)

theorem EncodeSelectsRow.jp (nnn : Addr) : EncodeSelectsRow.Statement (.jp nnn) :=
  selectsRow_of (fun _ => 0xF000) 0x1000 (fun p6 => by cases p6 <;> simp [opcodeRows, opcodeRowsLow, opcodeRowsAlu, opcodeRowsMid, opcodeRowsHigh, Instr.mnemonic]) (fun _ => (formatA_and_mask ..).trans (by decide))

theorem EncodeSelectsRow.call (nnn : Addr) : EncodeSelectsRow.Statement (.call nnn) :=
  selectsRow_of (fun _ => 0xF000) 0x2000 (fun p6 => by cases p6 <;> simp [opcodeRows, opcodeRowsLow, opcodeRowsAlu, opcodeRowsMid, opcodeRowsHigh, Instr.mnemonic]) (fun _ => (formatA_and_mask ..).trans (by decide))

theorem EncodeSelectsRow.seByte (x : Reg) (kk : Byte) : EncodeSelectsRow.Statement (.seByte x kk) :=
  selectsRow_of (fun _ => 0xF000) 0x3000 (fun p6 => by cases p6 <;> simp [opcodeRows, opcodeRowsLow, opcodeRowsAlu, opcodeRowsMid, opcodeRowsHigh, Instr.mnemonic]) (fun _ => (formatRI_and_mask ..).trans (by decide))

theorem EncodeSelectsRow.sneByte (x : Reg) (kk : Byte) : EncodeSelectsRow.Statement (.sneByte x kk) :=
  selectsRow_of (fun _ => 0xF000) 0x4000 (fun p6 => by cases p6 <;> simp [opcodeRows, opcodeRowsLow, opcodeRowsAlu, opcodeRowsMid, opcodeRowsHigh, Instr.mnemonic]) (fun _ => (formatRI_and_mask ..).trans (by decide))

theorem EncodeSelectsRow.seReg (x y : Reg) : EncodeSelectsRow.Statement (.seReg x y) :=
  selectsRow_of regPairMask 0x5000 (fun p6 => by cases p6 <;> simp [opcodeRows, opcodeRowsLow, opcodeRowsAlu, opcodeRowsMid, opcodeRowsHigh, Instr.mnemonic]) (fun p6 => (formatRR_and_regPairMask p6 _ x y).trans (by decide))

theorem EncodeSelectsRow.ldByte (x : Reg) (kk : Byte) : EncodeSelectsRow.Statement (.ldByte x kk) :=
  selectsRow_of (fun _ => 0xF000) 0x6000 (fun p6 => by cases p6 <;> simp [opcodeRows, opcodeRowsLow, opcodeRowsAlu, opcodeRowsMid, opcodeRowsHigh, Instr.mnemonic]) (fun _ => (formatRI_and_mask ..).trans (by decide))

theorem EncodeSelectsRow.addByte (x : Reg) (kk : Byte) : EncodeSelectsRow.Statement (.addByte x kk) :=
  selectsRow_of (fun _ => 0xF000) 0x7000 (fun p6 => by cases p6 <;> simp [opcodeRows, opcodeRowsLow, opcodeRowsAlu, opcodeRowsMid, opcodeRowsHigh, Instr.mnemonic]) (fun _ => (formatRI_and_mask ..).trans (by decide))

theorem EncodeSelectsRow.ldReg (x y : Reg) : EncodeSelectsRow.Statement (.ldReg x y) :=
  selectsRow_of (fun _ => 0xF00F) 0x8000 (fun p6 => by cases p6 <;> simp [opcodeRows, opcodeRowsLow, opcodeRowsAlu, opcodeRowsMid, opcodeRowsHigh, Instr.mnemonic]) (fun _ => (formatRR_and_mask ..).trans (by decide))

theorem EncodeSelectsRow.orReg (x y : Reg) : EncodeSelectsRow.Statement (.orReg x y) :=
  selectsRow_of (fun _ => 0xF00F) 0x8001 (fun p6 => by cases p6 <;> simp [opcodeRows, opcodeRowsLow, opcodeRowsAlu, opcodeRowsMid, opcodeRowsHigh, Instr.mnemonic]) (fun _ => (formatRR_and_mask ..).trans (by decide))

theorem EncodeSelectsRow.andReg (x y : Reg) : EncodeSelectsRow.Statement (.andReg x y) :=
  selectsRow_of (fun _ => 0xF00F) 0x8002 (fun p6 => by cases p6 <;> simp [opcodeRows, opcodeRowsLow, opcodeRowsAlu, opcodeRowsMid, opcodeRowsHigh, Instr.mnemonic]) (fun _ => (formatRR_and_mask ..).trans (by decide))

theorem EncodeSelectsRow.xorReg (x y : Reg) : EncodeSelectsRow.Statement (.xorReg x y) :=
  selectsRow_of (fun _ => 0xF00F) 0x8003 (fun p6 => by cases p6 <;> simp [opcodeRows, opcodeRowsLow, opcodeRowsAlu, opcodeRowsMid, opcodeRowsHigh, Instr.mnemonic]) (fun _ => (formatRR_and_mask ..).trans (by decide))

theorem EncodeSelectsRow.addReg (x y : Reg) : EncodeSelectsRow.Statement (.addReg x y) :=
  selectsRow_of (fun _ => 0xF00F) 0x8004 (fun p6 => by cases p6 <;> simp [opcodeRows, opcodeRowsLow, opcodeRowsAlu, opcodeRowsMid, opcodeRowsHigh, Instr.mnemonic]) (fun _ => (formatRR_and_mask ..).trans (by decide))

theorem EncodeSelectsRow.sub (x y : Reg) : EncodeSelectsRow.Statement (.sub x y) :=
  selectsRow_of (fun _ => 0xF00F) 0x8005 (fun p6 => by cases p6 <;> simp [opcodeRows, opcodeRowsLow, opcodeRowsAlu, opcodeRowsMid, opcodeRowsHigh, Instr.mnemonic]) (fun _ => (formatRR_and_mask ..).trans (by decide))

theorem EncodeSelectsRow.shr (x : Reg) : EncodeSelectsRow.Statement (.shr x) :=
  selectsRow_of (fun _ => 0xF00F) 0x8006 (fun p6 => by cases p6 <;> simp [opcodeRows, opcodeRowsLow, opcodeRowsAlu, opcodeRowsMid, opcodeRowsHigh, Instr.mnemonic]) (fun _ => (formatRR_and_mask ..).trans (by decide))

theorem EncodeSelectsRow.subn (x y : Reg) : EncodeSelectsRow.Statement (.subn x y) :=
  selectsRow_of (fun _ => 0xF00F) 0x8007 (fun p6 => by cases p6 <;> simp [opcodeRows, opcodeRowsLow, opcodeRowsAlu, opcodeRowsMid, opcodeRowsHigh, Instr.mnemonic]) (fun _ => (formatRR_and_mask ..).trans (by decide))

theorem EncodeSelectsRow.shl (x : Reg) : EncodeSelectsRow.Statement (.shl x) :=
  selectsRow_of (fun _ => 0xF00F) 0x800E (fun p6 => by cases p6 <;> simp [opcodeRows, opcodeRowsLow, opcodeRowsAlu, opcodeRowsMid, opcodeRowsHigh, Instr.mnemonic]) (fun _ => (formatRR_and_mask ..).trans (by decide))

theorem EncodeSelectsRow.sneReg (x y : Reg) : EncodeSelectsRow.Statement (.sneReg x y) :=
  selectsRow_of regPairMask 0x9000 (fun p6 => by cases p6 <;> simp [opcodeRows, opcodeRowsLow, opcodeRowsAlu, opcodeRowsMid, opcodeRowsHigh, Instr.mnemonic]) (fun p6 => (formatRR_and_regPairMask p6 _ x y).trans (by decide))

theorem EncodeSelectsRow.ldI (nnn : Addr) : EncodeSelectsRow.Statement (.ldI nnn) :=
  selectsRow_of (fun _ => 0xF000) 0xA000 (fun p6 => by cases p6 <;> simp [opcodeRows, opcodeRowsLow, opcodeRowsAlu, opcodeRowsMid, opcodeRowsHigh, Instr.mnemonic]) (fun _ => (formatA_and_mask ..).trans (by decide))

theorem EncodeSelectsRow.jpV0 (nnn : Addr) : EncodeSelectsRow.Statement (.jpV0 nnn) :=
  selectsRow_of (fun _ => 0xF000) 0xB000 (fun p6 => by cases p6 <;> simp [opcodeRows, opcodeRowsLow, opcodeRowsAlu, opcodeRowsMid, opcodeRowsHigh, Instr.mnemonic]) (fun _ => (formatA_and_mask ..).trans (by decide))

theorem EncodeSelectsRow.rnd (x : Reg) (kk : Byte) : EncodeSelectsRow.Statement (.rnd x kk) :=
  selectsRow_of (fun _ => 0xF000) 0xC000 (fun p6 => by cases p6 <;> simp [opcodeRows, opcodeRowsLow, opcodeRowsAlu, opcodeRowsMid, opcodeRowsHigh, Instr.mnemonic]) (fun _ => (formatRI_and_mask ..).trans (by decide))

theorem EncodeSelectsRow.drw (x y : Reg) (n : Nat) : EncodeSelectsRow.Statement (.drw x y n) :=
  selectsRow_of (fun _ => 0xF000) 0xD000 (fun p6 => by cases p6 <;> simp [opcodeRows, opcodeRowsLow, opcodeRowsAlu, opcodeRowsMid, opcodeRowsHigh, Instr.mnemonic]) (fun _ => (formatRRN_and_mask ..).trans (by decide))

theorem EncodeSelectsRow.skp (x : Reg) : EncodeSelectsRow.Statement (.skp x) :=
  selectsRow_of (fun _ => 0xF0FF) 0xE09E (fun p6 => by cases p6 <;> simp [opcodeRows, opcodeRowsLow, opcodeRowsAlu, opcodeRowsMid, opcodeRowsHigh, Instr.mnemonic]) (fun _ => (formatR_and_mask ..).trans (by decide))

theorem EncodeSelectsRow.sknp (x : Reg) : EncodeSelectsRow.Statement (.sknp x) :=
  selectsRow_of (fun _ => 0xF0FF) 0xE0A1 (fun p6 => by cases p6 <;> simp [opcodeRows, opcodeRowsLow, opcodeRowsAlu, opcodeRowsMid, opcodeRowsHigh, Instr.mnemonic]) (fun _ => (formatR_and_mask ..).trans (by decide))

theorem EncodeSelectsRow.ldVxDT (x : Reg) : EncodeSelectsRow.Statement (.ldVxDT x) :=
  selectsRow_of (fun _ => 0xF0FF) 0xF007 (fun p6 => by cases p6 <;> simp [opcodeRows, opcodeRowsLow, opcodeRowsAlu, opcodeRowsMid, opcodeRowsHigh, Instr.mnemonic]) (fun _ => (formatR_and_mask ..).trans (by decide))

theorem EncodeSelectsRow.ldVxK (x : Reg) : EncodeSelectsRow.Statement (.ldVxK x) :=
  selectsRow_of (fun _ => 0xF0FF) 0xF00A (fun p6 => by cases p6 <;> simp [opcodeRows, opcodeRowsLow, opcodeRowsAlu, opcodeRowsMid, opcodeRowsHigh, Instr.mnemonic]) (fun _ => (formatR_and_mask ..).trans (by decide))

theorem EncodeSelectsRow.ldDT (x : Reg) : EncodeSelectsRow.Statement (.ldDT x) :=
  selectsRow_of (fun _ => 0xF0FF) 0xF015 (fun p6 => by cases p6 <;> simp [opcodeRows, opcodeRowsLow, opcodeRowsAlu, opcodeRowsMid, opcodeRowsHigh, Instr.mnemonic]) (fun _ => (formatR_and_mask ..).trans (by decide))

theorem EncodeSelectsRow.ldST (x : Reg) : EncodeSelectsRow.Statement (.ldST x) :=
  selectsRow_of (fun _ => 0xF0FF) 0xF018 (fun p6 => by cases p6 <;> simp [opcodeRows, opcodeRowsLow, opcodeRowsAlu, opcodeRowsMid, opcodeRowsHigh, Instr.mnemonic]) (fun _ => (formatR_and_mask ..).trans (by decide))

theorem EncodeSelectsRow.addI (x : Reg) : EncodeSelectsRow.Statement (.addI x) :=
  selectsRow_of (fun _ => 0xF0FF) 0xF01E (fun p6 => by cases p6 <;> simp [opcodeRows, opcodeRowsLow, opcodeRowsAlu, opcodeRowsMid, opcodeRowsHigh, Instr.mnemonic]) (fun _ => (formatR_and_mask ..).trans (by decide))

theorem EncodeSelectsRow.ldF (x : Reg) : EncodeSelectsRow.Statement (.ldF x) :=
  selectsRow_of (fun _ => 0xF0FF) 0xF029 (fun p6 => by cases p6 <;> simp [opcodeRows, opcodeRowsLow, opcodeRowsAlu, opcodeRowsMid, opcodeRowsHigh, Instr.mnemonic]) (fun _ => (formatR_and_mask ..).trans (by decide))

theorem EncodeSelectsRow.ldB (x : Reg) : EncodeSelectsRow.Statement (.ldB x) :=
  selectsRow_of (fun _ => 0xF0FF) 0xF033 (fun p6 => by cases p6 <;> simp [opcodeRows, opcodeRowsLow, opcodeRowsAlu, opcodeRowsMid, opcodeRowsHigh, Instr.mnemonic]) (fun _ => (formatR_and_mask ..).trans (by decide))

theorem EncodeSelectsRow.storeRegs (x : Reg) : EncodeSelectsRow.Statement (.storeRegs x) :=
  selectsRow_of (fun _ => 0xF0FF) 0xF055 (fun p6 => by cases p6 <;> simp [opcodeRows, opcodeRowsLow, opcodeRowsAlu, opcodeRowsMid, opcodeRowsHigh, Instr.mnemonic]) (fun _ => (formatR_and_mask ..).trans (by decide))

theorem EncodeSelectsRow.loadRegs (x : Reg) : EncodeSelectsRow.Statement (.loadRegs x) :=
  selectsRow_of (fun _ => 0xF0FF) 0xF065 (fun p6 => by cases p6 <;> simp [opcodeRows, opcodeRowsLow, opcodeRowsAlu, opcodeRowsMid, opcodeRowsHigh, Instr.mnemonic]) (fun _ => (formatR_and_mask ..).trans (by decide))

end Sys2Proof.Laws
end

