-- ==== Sys2Proof/Laws/Transactions.lean ====
section
/-! SUPPORT. What each host transaction's update does to each field, and to the registers and memory bytes read. -/

namespace Sys2Proof.Machine

variable (s : State)

/-! ### State.offerRnd -/

@[simp] theorem State.offerRnd_cfg (b : Byte) : (s.offerRnd b).cfg = s.cfg := rfl
@[simp] theorem State.offerRnd_v (b : Byte) : (s.offerRnd b).v = s.v := rfl
@[simp] theorem State.offerRnd_i (b : Byte) : (s.offerRnd b).i = s.i := rfl
@[simp] theorem State.offerRnd_pc (b : Byte) : (s.offerRnd b).pc = s.pc := rfl
@[simp] theorem State.offerRnd_sp (b : Byte) : (s.offerRnd b).sp = s.sp := rfl
@[simp] theorem State.offerRnd_stack (b : Byte) : (s.offerRnd b).stack = s.stack := rfl
@[simp] theorem State.offerRnd_dt (b : Byte) : (s.offerRnd b).dt = s.dt := rfl
@[simp] theorem State.offerRnd_st (b : Byte) : (s.offerRnd b).st = s.st := rfl
@[simp] theorem State.offerRnd_mem (b : Byte) : (s.offerRnd b).mem = s.mem := rfl
@[simp] theorem State.offerRnd_fb (b : Byte) : (s.offerRnd b).fb = s.fb := rfl
@[simp] theorem State.offerRnd_changed (b : Byte) : (s.offerRnd b).changed = s.changed := rfl
@[simp] theorem State.offerRnd_keys (b : Byte) : (s.offerRnd b).keys = s.keys := rfl
@[simp] theorem State.offerRnd_fault (b : Byte) : (s.offerRnd b).fault = s.fault := rfl
@[simp] theorem State.offerRnd_rndInput (b : Byte) : (s.offerRnd b).rndInput = some b := rfl
@[simp] theorem State.offerRnd_rndDraws (b : Byte) : (s.offerRnd b).rndDraws = s.rndDraws := rfl
@[simp] theorem State.offerRnd_getV (b : Byte) (r : Reg) : (s.offerRnd b).getV r = s.getV r := rfl
@[simp] theorem State.offerRnd_readByte (b : Byte) (a : Nat) : (s.offerRnd b).readByte a = s.readByte a := rfl

/-! ### State.dropRnd -/

@[simp] theorem State.dropRnd_cfg : (s.dropRnd).cfg = s.cfg := rfl
@[simp] theorem State.dropRnd_v : (s.dropRnd).v = s.v := rfl
@[simp] theorem State.dropRnd_i : (s.dropRnd).i = s.i := rfl
@[simp] theorem State.dropRnd_pc : (s.dropRnd).pc = s.pc := rfl
@[simp] theorem State.dropRnd_sp : (s.dropRnd).sp = s.sp := rfl
@[simp] theorem State.dropRnd_stack : (s.dropRnd).stack = s.stack := rfl
@[simp] theorem State.dropRnd_dt : (s.dropRnd).dt = s.dt := rfl
@[simp] theorem State.dropRnd_st : (s.dropRnd).st = s.st := rfl
@[simp] theorem State.dropRnd_mem : (s.dropRnd).mem = s.mem := rfl
@[simp] theorem State.dropRnd_fb : (s.dropRnd).fb = s.fb := rfl
@[simp] theorem State.dropRnd_changed : (s.dropRnd).changed = s.changed := rfl
@[simp] theorem State.dropRnd_keys : (s.dropRnd).keys = s.keys := rfl
@[simp] theorem State.dropRnd_fault : (s.dropRnd).fault = s.fault := rfl
@[simp] theorem State.dropRnd_rndInput : (s.dropRnd).rndInput = none := rfl
@[simp] theorem State.dropRnd_rndDraws : (s.dropRnd).rndDraws = s.rndDraws := rfl
@[simp] theorem State.dropRnd_getV (r : Reg) : (s.dropRnd).getV r = s.getV r := rfl
@[simp] theorem State.dropRnd_readByte (a : Nat) : (s.dropRnd).readByte a = s.readByte a := rfl

/-! ### tick -/

@[simp] theorem tick_cfg : (tick s).cfg = s.cfg := rfl
@[simp] theorem tick_v : (tick s).v = s.v := rfl
@[simp] theorem tick_i : (tick s).i = s.i := rfl
@[simp] theorem tick_pc : (tick s).pc = s.pc := rfl
@[simp] theorem tick_sp : (tick s).sp = s.sp := rfl
@[simp] theorem tick_stack : (tick s).stack = s.stack := rfl
@[simp] theorem tick_dt : (tick s).dt = decrement s.dt := rfl
@[simp] theorem tick_st : (tick s).st = decrement s.st := rfl
@[simp] theorem tick_mem : (tick s).mem = s.mem := rfl
@[simp] theorem tick_fb : (tick s).fb = s.fb := rfl
@[simp] theorem tick_changed : (tick s).changed = s.changed := rfl
@[simp] theorem tick_keys : (tick s).keys = s.keys := rfl
@[simp] theorem tick_fault : (tick s).fault = s.fault := rfl
@[simp] theorem tick_rndInput : (tick s).rndInput = s.rndInput := rfl
@[simp] theorem tick_rndDraws : (tick s).rndDraws = s.rndDraws := rfl
@[simp] theorem tick_getV (r : Reg) : (tick s).getV r = s.getV r := rfl
@[simp] theorem tick_readByte (a : Nat) : (tick s).readByte a = s.readByte a := rfl

/-! ### keySet -/

@[simp] theorem keySet_cfg (k : Key) (d : Bool) : (keySet k d s).cfg = s.cfg := rfl
@[simp] theorem keySet_v (k : Key) (d : Bool) : (keySet k d s).v = s.v := rfl
@[simp] theorem keySet_i (k : Key) (d : Bool) : (keySet k d s).i = s.i := rfl
@[simp] theorem keySet_pc (k : Key) (d : Bool) : (keySet k d s).pc = s.pc := rfl
@[simp] theorem keySet_sp (k : Key) (d : Bool) : (keySet k d s).sp = s.sp := rfl
@[simp] theorem keySet_stack (k : Key) (d : Bool) : (keySet k d s).stack = s.stack := rfl
@[simp] theorem keySet_dt (k : Key) (d : Bool) : (keySet k d s).dt = s.dt := rfl
@[simp] theorem keySet_st (k : Key) (d : Bool) : (keySet k d s).st = s.st := rfl
@[simp] theorem keySet_mem (k : Key) (d : Bool) : (keySet k d s).mem = s.mem := rfl
@[simp] theorem keySet_fb (k : Key) (d : Bool) : (keySet k d s).fb = s.fb := rfl
@[simp] theorem keySet_changed (k : Key) (d : Bool) : (keySet k d s).changed = s.changed := rfl
@[simp] theorem keySet_keys (k : Key) (d : Bool) : (keySet k d s).keys = s.keys.set k d := rfl
@[simp] theorem keySet_fault (k : Key) (d : Bool) : (keySet k d s).fault = s.fault := rfl
@[simp] theorem keySet_rndInput (k : Key) (d : Bool) : (keySet k d s).rndInput = s.rndInput := rfl
@[simp] theorem keySet_rndDraws (k : Key) (d : Bool) : (keySet k d s).rndDraws = s.rndDraws := rfl
@[simp] theorem keySet_getV (k : Key) (d : Bool) (r : Reg) : (keySet k d s).getV r = s.getV r := rfl
@[simp] theorem keySet_readByte (k : Key) (d : Bool) (a : Nat) : (keySet k d s).readByte a = s.readByte a := rfl

/-! ### clearChanged -/

@[simp] theorem clearChanged_cfg : (clearChanged s).cfg = s.cfg := rfl
@[simp] theorem clearChanged_v : (clearChanged s).v = s.v := rfl
@[simp] theorem clearChanged_i : (clearChanged s).i = s.i := rfl
@[simp] theorem clearChanged_pc : (clearChanged s).pc = s.pc := rfl
@[simp] theorem clearChanged_sp : (clearChanged s).sp = s.sp := rfl
@[simp] theorem clearChanged_stack : (clearChanged s).stack = s.stack := rfl
@[simp] theorem clearChanged_dt : (clearChanged s).dt = s.dt := rfl
@[simp] theorem clearChanged_st : (clearChanged s).st = s.st := rfl
@[simp] theorem clearChanged_mem : (clearChanged s).mem = s.mem := rfl
@[simp] theorem clearChanged_fb : (clearChanged s).fb = s.fb := rfl
@[simp] theorem clearChanged_changed : (clearChanged s).changed = false := rfl
@[simp] theorem clearChanged_keys : (clearChanged s).keys = s.keys := rfl
@[simp] theorem clearChanged_fault : (clearChanged s).fault = s.fault := rfl
@[simp] theorem clearChanged_rndInput : (clearChanged s).rndInput = s.rndInput := rfl
@[simp] theorem clearChanged_rndDraws : (clearChanged s).rndDraws = s.rndDraws := rfl
@[simp] theorem clearChanged_getV (r : Reg) : (clearChanged s).getV r = s.getV r := rfl
@[simp] theorem clearChanged_readByte (a : Nat) : (clearChanged s).readByte a = s.readByte a := rfl

end Sys2Proof.Machine
end

