-- ==== Sys2Proof/Laws/Step.lean ====
section
/-! SUPPORT. What a step can do, said once, and which instruction reads the random byte. -/

namespace Sys2Proof.Machine

/-- Everything a step can do (40_cycle.md R80). -/
theorem step_cases {s : State} {r : Result} (h : step s = r) :
    (∃ f, s.fault = some f ∧ r = .fault f.cause) ∨
    (s.fault = none ∧ s.fetchAddr = 0xFFF ∧ r = .next (s.latch .memoryOutOfRange none)) ∨
    (s.fault = none ∧ s.fetchAddr < 0xFFF ∧
      (∃ e, decodeWord s.cfg.decodeStrict s.fetchWord = .error e) ∧ r = .next s.advance) ∨
    (s.fault = none ∧ s.fetchAddr < 0xFFF ∧
      ∃ i, decodeWord s.cfg.decodeStrict s.fetchWord = .ok i ∧ r = exec i s.advance) := by
  subst h
  have hlt : s.fetchAddr < 4096 := s.fetchAddr_lt
  unfold step
  cases hf : s.fault with
  | some f => exact .inl ⟨f, rfl, rfl⟩
  | none =>
    right
    cases hc : checkRange s.fetchAddr 2 with
    | some c =>
      obtain ⟨rfl, -, h2⟩ := checkRange_eq_some.1 hc
      refine .inl ⟨rfl, ?_, rfl⟩
      simp only [memSize] at h2
      omega
    | none =>
      have h2 := checkRange_eq_none.1 hc
      simp only [memSize] at h2
      have ha : s.fetchAddr < 0xFFF := by omega
      right
      cases hd : decodeWord s.cfg.decodeStrict s.fetchWord with
      | error e => exact .inl ⟨rfl, ha, ⟨e, rfl⟩, rfl⟩
      | ok i => exact .inr ⟨rfl, ha, i, rfl, rfl⟩

/-- The fetch address of a pc at which a word can be fetched is given by the pc alone. -/
theorem State.fetchAddr_of_pc {s t : State} (h : t.pc = s.pc) : t.fetchAddr = s.fetchAddr := by
  simp [State.fetchAddr, h]

/-! ## No meaning answers a fault: a fault is latched in a next state -/

theorem State.checked_ne_fault (s : State) (check : Option Fault) (i : Instr) (rest : State) (c : Fault) :
    s.checked check i rest ≠ .fault c := by
  cases check <;> simp [State.checked]

theorem State.writeAliased_ne_fault (s : State) (x : Reg) (res : Byte) (flg : Bool) (c : Fault) :
    s.writeAliased x res flg ≠ .fault c := by
  intro h
  rcases s.writeAliased_cases h with ⟨_, h⟩ | ⟨_, _, h⟩ | ⟨_, _, h⟩ | ⟨_, _, h⟩ <;> cases h

theorem exec_ne_fault (i : Instr) (s : State) (c : Fault) : exec i s ≠ .fault c := by
  cases i <;> intro h
  case ret => simp only [exec, execRet] at h; split_ifs at h
  case call => simp only [exec, execCall] at h; split_ifs at h
  case drw => exact s.checked_ne_fault _ _ _ c h
  case ldB => exact s.checked_ne_fault _ _ _ c h
  case storeRegs => exact s.checked_ne_fault _ _ _ c h
  case loadRegs => exact s.checked_ne_fault _ _ _ c h
  case sub => exact s.writeAliased_ne_fault _ _ _ c h
  case subn => exact s.writeAliased_ne_fault _ _ _ c h
  case shr => exact s.writeAliased_ne_fault _ _ _ c h
  case shl => exact s.writeAliased_ne_fault _ _ _ c h
  case skp => simp only [exec, execSkp] at h; split at h <;> cases h
  case sknp => simp only [exec, execSknp] at h; split at h <;> cases h
  case ldVxK => simp only [exec, execLdVxK] at h; split at h <;> cases h
  case ldF => simp only [exec, execLdF] at h; split_ifs at h
  all_goals cases h

/-- Everything a step transaction can do (40_cycle.md R80, R86 to R89; 60_exceptions.md R303). -/
theorem stepWith_cases (rnd : Byte) (s : State) :
    (∃ r, s.fault = some r ∧ stepWith rnd s = (s, .fault r.cause)) ∨
    (s.fault = none ∧ ∃ t, step (s.offerRnd rnd) = .next t ∧ stepWith rnd s = (t.dropRnd, t.stepResult)) ∨
    (s.fault = none ∧ ∃ w, step (s.offerRnd rnd) = .refused w ∧ stepWith rnd s = (s, .refused w)) := by
  cases hs : s.fault with
  | some r =>
    have h : step (s.offerRnd rnd) = .fault r.cause := by
      simp [step, hs]
    exact .inl ⟨r, rfl, by simp [stepWith, h]⟩
  | none =>
    right
    cases h : step (s.offerRnd rnd) with
    | next t => exact .inl ⟨rfl, t, rfl, by simp [stepWith, h]⟩
    | refused w => exact .inr ⟨rfl, w, rfl, by simp [stepWith, h]⟩
    | fault c =>
      rcases step_cases h with ⟨f, hf, _⟩ | ⟨_, _, h2⟩ | ⟨_, _, _, h2⟩ | ⟨_, _, i, _, h2⟩
      · rw [State.offerRnd_fault, hs] at hf; cases hf
      · cases h2
      · cases h2
      · exact absurd h2.symm (exec_ne_fault _ _ _)

/-! ## The random byte is read by Cxkk alone -/

/-- The answer with the host's byte put on the input of its next state. -/
def offerRndNext (b : Byte) : Result → Result
  | .next t => .next (t.offerRnd b)
  | .fault c => .fault c
  | .refused w => .refused w

theorem State.skipIf_offerRnd (s : State) (b : Byte) (c : Bool) :
    (s.offerRnd b).skipIf c = (s.skipIf c).offerRnd b := by cases c <;> rfl

theorem State.checked_offerRnd (s : State) (b : Byte) (check : Option Fault) (i : Instr) (rest : State) :
    (s.offerRnd b).checked check i (rest.offerRnd b) = offerRndNext b (s.checked check i rest) := by cases check <;> rfl

theorem State.writeAliased_offerRnd (s : State) (b : Byte) (x : Reg) (res : Byte) (flg : Bool) :
    (s.offerRnd b).writeAliased x res flg = offerRndNext b (s.writeAliased x res flg) := by
  simp only [State.writeAliased, State.offerRnd_cfg]
  split
  · split <;> rfl
  · rfl

theorem State.writeBytes_offerRnd (b : Byte) (bs : List Byte) (s : State) (base : Nat) :
    (s.offerRnd b).writeBytes base bs = (s.writeBytes base bs).offerRnd b := by
  induction bs generalizing s base with
  | nil => rfl
  | cons c bs ih => exact ih (s.writeByte base c) (base + 1)

/-- Only Cxkk reads the random byte (40_cycle.md R89): every other meaning carries the input through untouched. -/
theorem exec_offerRnd {i : Instr} (h : ∀ x kk, i ≠ .rnd x kk) (s : State) (b : Byte) :
    exec i (s.offerRnd b) = offerRndNext b (exec i s) := by
  cases i
  case rnd x kk => exact absurd rfl (h x kk)
  case ret =>
    change execRet _ = offerRndNext b (execRet s)
    unfold execRet
    by_cases hp : 0 < s.sp.val
    · have hp' : 0 < (s.offerRnd b).sp.val := hp
      rw [dif_pos hp', dif_pos hp]; rfl
    · have hp' : ¬ 0 < (s.offerRnd b).sp.val := hp
      rw [dif_neg hp', dif_neg hp]; rfl
  case call nnn =>
    change execCall nnn _ = offerRndNext b (execCall nnn s)
    unfold execCall
    by_cases hp : s.sp.val < 16
    · have hp' : (s.offerRnd b).sp.val < 16 := hp
      rw [dif_pos hp', dif_pos hp]; rfl
    · have hp' : ¬ (s.offerRnd b).sp.val < 16 := hp
      rw [dif_neg hp', dif_neg hp]; rfl
  case seByte | sneByte | seReg | sneReg => exact congrArg _ (State.skipIf_offerRnd ..)
  case sub | subn | shr | shl => exact State.writeAliased_offerRnd ..
  case drw x y n =>
    let cv := drawSprite s.fb (s.getV x) (s.getV y) (s.readBytes s.indexBase n)
    exact s.checked_offerRnd b _ _ ((s.setGrid cv.grid).setV vf (flagByte cv.collision))
  case loadRegs x => exact s.checked_offerRnd b _ _ (s.setVUpTo x fun r => s.readByte (s.indexBase + r))
  case ldB | storeRegs =>
    exact (congrArg _ (State.writeBytes_offerRnd ..)).trans (State.checked_offerRnd ..)
  case skp | sknp =>
    simp only [exec, execSkp, execSknp, State.offerRnd_cfg, State.offerRnd_getV]
    split
    · rfl
    · exact congrArg _ (State.skipIf_offerRnd ..)
  case ldVxK x =>
    have h : (s.offerRnd b).anyDown = s.anyDown := rfl
    simp only [exec, execLdVxK, h]
    split <;> rfl
  case ldF x =>
    change execLdF x _ = offerRndNext b (execLdF x s)
    unfold execLdF
    by_cases hr : 15 < (s.getV x).toNat ∧ s.cfg.glyphAddrOor = .refuse
    · have hr' : 15 < ((s.offerRnd b).getV x).toNat ∧ (s.offerRnd b).cfg.glyphAddrOor = .refuse := hr
      rw [if_pos hr', if_pos hr]; rfl
    · have hr' : ¬ (15 < ((s.offerRnd b).getV x).toNat ∧ (s.offerRnd b).cfg.glyphAddrOor = .refuse) := hr
      rw [if_neg hr', if_neg hr]; rfl
  all_goals rfl

end Sys2Proof.Machine
end

