-- ==== Sys2Proof/Tests/Slice0.lean ====
section
/-! SUPPORT. Tests. Expected results come from spec/: V<n> and S<n> are the vectors of 95_test_vectors.md, R<n> a rule's own
words. Witnesses show that the hypotheses of the obligations can be met. -/

namespace Sys2Proof.Tests

open Sys2Proof.Machine

/-- The reset state with the word at 0x200. -/
def fetching (w : Nat) : State := State.reset.withFetchWord 16 w
/-- The same under other parameters. -/
def fetchingUnder (c : Config) (w : Nat) : State := (State.resetWith c).withFetchWord 16 w
/-- The next state of a step, if it answers one. -/
def nxt (s : State) : Option State :=
  match step s with
  | .next t => some t
  | .fault _ => none
  | .refused _ => none
/-- The refusal of a step, if it answers one. -/
def refusal (s : State) : Option Refusal :=
  match step s with
  | .next _ => none
  | .fault _ => none
  | .refused why => some why
/-- A grid with one pixel lit. -/
def onePixel (r : Fin 32) (c : Fin 64) : Grid := Grid.clear.flip r c
/-- The lit columns of a row. -/
def lit (g : Grid) (r : Fin 32) : List Nat := ((List.finRange 64).filter (g.pixel r)).map Fin.val
/-- A state with key k down. -/
def withKey (k : Key) (s : State) : State := keySet k true s

/-! ## WellFormed -/

theorem test_wf_draw_count_16_refused : (Instr.drw 0 0 16).wellFormed = false := by decide
theorem test_wf_draw_count_15_accepted : (Instr.drw 0 0 15).wellFormed = true := by decide

/-! ## Decoding: words written out from the bit layout of 30_encoding.md R60, R62, R63, one per row -/

theorem test_decode_row1 : decodeWord .strict 0b0000000011100000#16 = .ok .cls := by decide
theorem test_decode_row2 : decodeWord .strict 0b0000000011101110#16 = .ok .ret := by decide
theorem test_decode_row3 : decodeWord .strict 0b0001101010111100#16 = .ok (.jp 0xABC) := by decide
theorem test_decode_row4 : decodeWord .strict 0b0010001101000101#16 = .ok (.call 0x345) := by decide
theorem test_decode_row5 : decodeWord .strict 0b0011000001000010#16 = .ok (.seByte 0 0x42) := by decide
theorem test_decode_row6 : decodeWord .strict 0b0100110110000001#16 = .ok (.sneByte 13 0x81) := by decide
theorem test_decode_row7 : decodeWord .strict 0b0101001000110000#16 = .ok (.seReg 2 3) := by decide
theorem test_decode_row8 : decodeWord .strict 0b0110111100010010#16 = .ok (.ldByte 15 0x12) := by decide
theorem test_decode_row9 : decodeWord .strict 0b0111000011111111#16 = .ok (.addByte 0 0xFF) := by decide
theorem test_decode_row10 : decodeWord .strict 0b1000000100100000#16 = .ok (.ldReg 1 2) := by decide
theorem test_decode_row11 : decodeWord .strict 0b1000000100100001#16 = .ok (.orReg 1 2) := by decide
theorem test_decode_row12 : decodeWord .strict 0b1000000100100010#16 = .ok (.andReg 1 2) := by decide
theorem test_decode_row13 : decodeWord .strict 0b1000000100100011#16 = .ok (.xorReg 1 2) := by decide
theorem test_decode_row14 : decodeWord .strict 0b1000000100100100#16 = .ok (.addReg 1 2) := by decide
theorem test_decode_row15 : decodeWord .strict 0b1000000100100101#16 = .ok (.sub 1 2) := by decide
theorem test_decode_row16 : decodeWord .strict 0b1000001101010110#16 = .ok (.shr 3) := by decide
theorem test_decode_row17 : decodeWord .strict 0b1000000100100111#16 = .ok (.subn 1 2) := by decide
theorem test_decode_row18 : decodeWord .strict 0b1000001101011110#16 = .ok (.shl 3) := by decide
theorem test_decode_row19 : decodeWord .strict 0b1001001000110000#16 = .ok (.sneReg 2 3) := by decide
theorem test_decode_row20 : decodeWord .strict 0b1010001100000001#16 = .ok (.ldI 0x301) := by decide
theorem test_decode_row21 : decodeWord .strict 0b1011111111111111#16 = .ok (.jpV0 0xFFF) := by decide
theorem test_decode_row22 : decodeWord .strict 0b1100010000001111#16 = .ok (.rnd 4 0x0F) := by decide
theorem test_decode_row23 : decodeWord .strict 0b1101101010110010#16 = .ok (.drw 10 11 2) := by decide
theorem test_decode_row24 : decodeWord .strict 0b1110000110011110#16 = .ok (.skp 1) := by decide
theorem test_decode_row25 : decodeWord .strict 0b1110000110100001#16 = .ok (.sknp 1) := by decide
theorem test_decode_row26 : decodeWord .strict 0b1111111100000111#16 = .ok (.ldVxDT 15) := by decide
theorem test_decode_row27 : decodeWord .strict 0b1111011000001010#16 = .ok (.ldVxK 6) := by decide
theorem test_decode_row28 : decodeWord .strict 0b1111011100010101#16 = .ok (.ldDT 7) := by decide
theorem test_decode_row29 : decodeWord .strict 0b1111100000011000#16 = .ok (.ldST 8) := by decide
theorem test_decode_row30 : decodeWord .strict 0b1111100100011110#16 = .ok (.addI 9) := by decide
theorem test_decode_row31 : decodeWord .strict 0b1111101000101001#16 = .ok (.ldF 10) := by decide
theorem test_decode_row32 : decodeWord .strict 0b1111101100110011#16 = .ok (.ldB 11) := by decide
theorem test_decode_row33 : decodeWord .strict 0b1111001001010101#16 = .ok (.storeRegs 2) := by decide
theorem test_decode_row34 : decodeWord .strict 0b1111110101100101#16 = .ok (.loadRegs 13) := by decide

/-- R64: the low nibble of 5xy_ and 9xy_ under the two settings of P6. -/
theorem test_decode_p6 :
    decodeWord .strict 0x5011#16 = .error (.unknownEncoding 0x5011) ∧ decodeWord .loose 0x5011#16 = .ok (.seReg 0 1) ∧
    decodeWord .strict 0x901F#16 = .error (.unknownEncoding 0x901F) ∧ decodeWord .loose 0x901F#16 = .ok (.sneReg 0 1) := by
  decide

/-- R65: unknown words, one per top nibble that has any, and the neighbours of CLS and RET. -/
theorem test_decode_unknown :
    [0x0000#16, 0x00E1#16, 0x00EF#16, 0x01E0#16, 0x8008#16, 0x800F#16, 0xE09F#16, 0xE0A0#16, 0xF008#16, 0xF056#16].all
      (fun w => decide (decodeWord .strict w = .error (.unknownEncoding w))) = true := by decide

/-- R67, 20_memory.md R46: two bytes, the first the high byte; one byte is no instruction. -/
theorem test_decode_bytes :
    decode .strict [0x23, 0x45, 0x00] = .ok (.call 0x345, [0x00]) ∧ decode .strict [0x23] = .error .truncated := by decide

/-! ## Display -/

/-- V1, V2. -/
theorem test_cls :
    (nxt { fetching 0x00E0 with fb := onePixel 31 63 }).map (fun t => (t.fb.pixel 31 63, t.changed, t.pc)) =
      some (false, true, 0x202) ∧
    (nxt (fetching 0x00E0)).map (·.changed) = some true := by decide

/-- S4 and R102: one row of ones at column 60 wraps to 60..63 and 0..3. -/
theorem test_drw_wraps_columns :
    (nxt (((fetching 0xD011).setV 0 60).setI 0x300 |>.writeByte 0x300 0xFF)).map
      (fun t => (lit t.fb 0, t.getV 15, t.changed)) = some ([0, 1, 2, 3, 60, 61, 62, 63], 0, true) := by decide

/-- V7: coordinates are read before VF is written, and an erased pixel is a collision. -/
theorem test_drw_collides_at_vf :
    (nxt { ((fetching 0xDFF1).setV 15 2).setI 0x300 |>.writeByte 0x300 0x80 with fb := onePixel 2 2 }).map
      (fun t => (t.fb.pixel 2 2, t.getV 15)) = some (false, 1) := by decide

/-! ## Control flow -/

/-- V9 and V10. -/
theorem test_ret :
    (nxt (fetching 0x00EE)).map (fun t => (t.fault, t.pc)) =
      some (some { cause := .stackUnderflow, pc := 0x200, op := some 0x00EE }, 0x200) ∧
    (nxt { fetching 0x00EE with sp := 2, stack := (Vector.replicate 16 0).set 0 0x206 |>.set 1 0x1302 }).map
      (fun t => (t.sp, t.pc, t.stack[1])) = some (1, 0x1302, 0x1302) := by decide

/-- V11. -/
theorem test_jp :
    (nxt (fetching 0x1FFF)).map (·.pc) = some 0xFFF ∧
    ((nxt (fetching 0x1FFF)).bind nxt).map (·.fault) =
      some (some { cause := .memoryOutOfRange, pc := 0xFFF, op := none }) := by decide

/-- V12 and V13. -/
theorem test_call :
    (nxt { fetching 0x2345 with sp := 15 }).map (fun t => (t.stack[15], t.sp, t.pc)) = some (0x202, 16, 0x345) ∧
    (nxt { fetching 0x2345 with sp := 16 }).map (fun t => (t.fault, t.sp, t.pc)) =
      some (some { cause := .stackOverflow, pc := 0x200, op := some 0x2345 }, 16, 0x200) := by decide

/-- V14, V15 and the other way of each. -/
theorem test_skips_immediate :
    (nxt ((fetching 0x3042).setV 0 0x42)).map (·.pc) = some 0x204 ∧
    (nxt ((fetching 0x3042).setV 0 0x43)).map (·.pc) = some 0x202 ∧
    (nxt ((fetching 0x4042).setV 0 0x42)).map (·.pc) = some 0x202 ∧
    (nxt ((fetching 0x4042).setV 0 0x43)).map (·.pc) = some 0x204 := by decide

/-- V16 (both settings of P6) and V17. -/
theorem test_skips_registers :
    (nxt (((fetching 0x5011).setV 0 1).setV 1 1)).map (·.pc) = some 0x202 ∧
    (nxt (((fetchingUnder { Config.default with decodeStrict := .loose } 0x5011).setV 0 1).setV 1 1)).map (·.pc) =
      some 0x204 ∧
    (nxt (((fetching 0x9010).setV 0 1).setV 1 2)).map (·.pc) = some 0x204 := by decide

/-- V18. -/
theorem test_jp_v0 : (nxt ((fetching 0xBFFF).setV 0 0xFF)).map (·.pc) = some 0x10FE := by decide

/-- V19: a skip runs over 0xFFF into pc = 0x1000. -/
theorem test_skip_at_the_top :
    (nxt ((({ State.reset with pc := 0xFFC } : State).withFetchWord 16 0x3000))).map (·.pc) = some 0x1000 := by decide

/-! ## Arithmetic and logic -/

/-- V20, V21. -/
theorem test_immediates :
    (nxt (fetching 0x6F12)).map (·.getV 15) = some 0x12 ∧
    (nxt (((fetching 0x70FF).setV 0 1).setV 15 0x55)).map (fun t => (t.getV 0, t.getV 15)) = some (0, 0x55) := by decide

/-- R143 to R146, V22; operands 0x3C and 0x66, VF kept. -/
theorem test_logic :
    [0x8010, 0x8011, 0x8012, 0x8013].map
      (fun w => (nxt ((((fetching w).setV 0 0x3C).setV 1 0x66).setV 15 0x55)).map (fun t => (t.getV 0, t.getV 15))) =
    [some (0x66, 0x55), some (0x7E, 0x55), some (0x24, 0x55), some (0x5A, 0x55)] := by decide

/-- V23, V24. -/
theorem test_add_carry :
    (nxt (((fetching 0x8014).setV 0 0xFF).setV 1 0x01)).map (fun t => (t.getV 0, t.getV 15)) = some (0, 1) ∧
    (nxt (((fetching 0x8014).setV 0 0x7F).setV 1 0x80)).map (fun t => (t.getV 0, t.getV 15)) = some (0xFF, 0) := by decide

/-- V25, V26, V27: VF as an operand of ADD. -/
theorem test_add_with_vf :
    (nxt (((fetching 0x8F04).setV 15 0xF0).setV 0 0x20)).map (·.getV 15) = some 1 ∧
    (nxt (((fetching 0x80F4).setV 0 0xF0).setV 15 0x20)).map (fun t => (t.getV 0, t.getV 15)) = some (0x10, 1) ∧
    (nxt ((fetching 0x8FF4).setV 15 0x80)).map (·.getV 15) = some 1 := by decide

/-- V28, V29, V31. -/
theorem test_sub :
    (nxt (((fetching 0x8015).setV 0 7).setV 1 7)).map (fun t => (t.getV 0, t.getV 15)) = some (0, 1) ∧
    (nxt (((fetching 0x8015).setV 0 3).setV 1 5)).map (fun t => (t.getV 0, t.getV 15)) = some (0xFE, 0) ∧
    (nxt (((fetching 0x80F5).setV 0 5).setV 15 3)).map (fun t => (t.getV 0, t.getV 15)) = some (2, 1) := by decide

/-- V35, V39 and the instance of S3. -/
theorem test_shifts :
    (nxt (((fetching 0x8056).setV 0 3).setV 5 0xFF)).map (fun t => (t.getV 0, t.getV 15)) = some (1, 1) ∧
    (nxt ((fetching 0x801E).setV 0 0x40)).map (fun t => (t.getV 0, t.getV 15)) = some (0x80, 0) ∧
    (nxt ((fetching 0x800E).setV 0 0x81)).map (fun t => (t.getV 0, t.getV 15)) = some (2, 1) := by decide

/-- V36, V37. -/
theorem test_subn :
    (nxt (((fetching 0x8017).setV 0 5).setV 1 3)).map (fun t => (t.getV 0, t.getV 15)) = some (0xFE, 0) ∧
    (nxt (((fetching 0x80F7).setV 0 5).setV 15 3)).map (fun t => (t.getV 0, t.getV 15)) = some (0xFE, 0) := by decide

/-- V32, V34, V38, V40 under DocOrder. -/
theorem test_vf_alias_doc_order :
    (nxt (((fetching 0x8F05).setV 15 9).setV 0 4)).map (·.getV 15) = some 5 ∧
    (nxt ((fetching 0x8F06).setV 15 2)).map (·.getV 15) = some 1 ∧
    (nxt (((fetching 0x8F07).setV 15 4).setV 0 9)).map (·.getV 15) = some 5 ∧
    (nxt ((fetching 0x8F0E).setV 15 0x81)).map (·.getV 15) = some 2 := by decide

/-- V32, V34, V38, V40 under FlagLast. -/
theorem test_vf_alias_flag_last :
    let c : Config := { Config.default with vfAliasOrder := .flagLast }
    (nxt (((fetchingUnder c 0x8F05).setV 15 9).setV 0 4)).map (·.getV 15) = some 1 ∧
    (nxt ((fetchingUnder c 0x8F06).setV 15 2)).map (·.getV 15) = some 0 ∧
    (nxt (((fetchingUnder c 0x8F07).setV 15 4).setV 0 9)).map (·.getV 15) = some 1 ∧
    (nxt ((fetchingUnder c 0x8F0E).setV 15 0x81)).map (·.getV 15) = some 1 := by decide

/-- V32 under Refuse, and V25 there: ADD is never refused. -/
theorem test_vf_alias_refuse :
    let c : Config := { Config.default with vfAliasOrder := .refuse }
    refusal (fetchingUnder c 0x8F05) = some .vfAliasOrder ∧
    (nxt (((fetchingUnder c 0x8F04).setV 15 0xF0).setV 0 0x20)).map (·.getV 15) = some 1 := by decide

/-- V41, V42. -/
theorem test_rnd :
    (stepWith 0xAB (fetching 0xC00F)).1.getV 0 = 0x0B ∧ (stepWith 0xFF ((fetching 0xC000).setV 0 9)).1.getV 0 = 0 := by
  decide

/-- V43, S11. -/
theorem test_unknown_is_a_no_op : step (fetching 0x8008) = .next { fetching 0x8008 with pc := 0x202 } := rfl

/-! ## Index register and memory -/

/-- R170, V44, V45. -/
theorem test_index :
    (nxt (fetching 0xA301)).map (·.i) = some 0x301 ∧
    (nxt ((((fetching 0xF01E).setI 0xFFFF).setV 0 1).setV 15 0x55)).map (fun t => (t.i, t.getV 15)) = some (0, 0x55) ∧
    (nxt (((fetching 0xF01E).setI 0x0FFF).setV 0 1)).map (·.i) = some 0x1000 := by decide

/-- V47 under both settings of P5, and the instance of S8. -/
theorem test_glyph_address :
    (nxt ((fetching 0xF029).setV 0 0xFF)).map (·.i) = some 0x4FB ∧
    refusal ((fetchingUnder { Config.default with glyphAddrOor := .refuse } 0xF029).setV 0 0xFF) = some .glyphAddress ∧
    (nxt ((fetching 0xF029).setV 0 0xA)).map (fun t => (t.i, t.readBytes 0x032 5)) =
      some (0x032, [0xF0, 0x90, 0xF0, 0x90, 0x90]) := by decide

/-- V51, S10. -/
theorem test_bcd :
    (nxt (((fetching 0xF033).setV 0 1).setI 0xFFD)).map (·.readBytes 0xFFD 3) = some [0, 0, 1] ∧
    (nxt (((fetching 0xF033).setV 0 0xFF).setI 0x300)).map (·.readBytes 0x300 3) = some [2, 5, 5] := by decide

/-- V52, V54, V55. -/
theorem test_bcd_edges :
    (nxt (((fetching 0xF033).setV 0 1).setI 0xFFE)).map (fun t => (t.fault, t.readBytes 0xFFE 2)) =
      some (some { cause := .memoryOutOfRange, pc := 0x200, op := some 0xF033 }, [0, 0]) ∧
    (nxt (((fetching 0xF033).setV 0 1).setI 0x104F)).map (·.fault) =
      some (some { cause := .glyphTableWrite, pc := 0x200, op := some 0xF033 }) ∧
    (nxt (((fetchingUnder { Config.default with glyphWrite := .allow } 0xF033).setV 0 123).setI 0x04F)).map
      (·.readBytes 0x04F 3) = some [1, 2, 3] := by decide

/-- V56 and V58. -/
theorem test_register_dump :
    (nxt (((fetching 0xFF55).setV 5 5).setI 0xFF0)).map (fun t => (t.readByte 0xFF5, t.readByte 0xFFF, t.i)) =
      some (5, 0, 0xFF0) ∧
    (nxt ((fetching 0xF055).setI 0x04F)).map (·.fault) =
      some (some { cause := .glyphTableWrite, pc := 0x200, op := some 0xF055 }) := by decide

/-- V60 and V61. -/
theorem test_register_load :
    (nxt (fetching 0xFF65)).map (fun t => (t.v.toList, t.i)) =
      some ([0xF0, 0x90, 0x90, 0x90, 0xF0, 0x20, 0x60, 0x20, 0x20, 0x70, 0xF0, 0x10, 0xF0, 0x80, 0xF0, 0xF0], 0) ∧
    (nxt ((((fetching 0xF065).setI 0xFFF).setV 1 3).writeByte 0xFFF 0x77)).map (fun t => (t.getV 0, t.getV 1)) =
      some (0x77, 3) := by decide

/-! ## Keypad and timers -/

/-- V62 under both settings of P4. -/
theorem test_skp :
    (nxt ((fetching 0xE09E).setV 0 0x10)).map (fun t => (t.fault, t.pc)) =
      some (some { cause := .keyIndexOutOfRange, pc := 0x200, op := some 0xE09E }, 0x200) ∧
    (nxt ((withKey 0 (fetchingUnder { Config.default with keyIndexOor := .mask } 0xE09E)).setV 0 0x10)).map (·.pc) =
      some 0x204 ∧
    (nxt ((withKey 3 (fetching 0xE09E)).setV 0 3)).map (·.pc) = some 0x204 := by decide

/-- V63, V64. -/
theorem test_sknp :
    (nxt ((fetching 0xE0A1).setV 0 3)).map (·.pc) = some 0x204 ∧
    (nxt ((withKey 3 (fetching 0xE0A1)).setV 0 3)).map (·.pc) = some 0x202 := by decide

/-- S7, V66. -/
theorem test_wait_for_key :
    (nxt (fetching 0xF60A)).map (fun t => (t.pc, t.getV 6)) = some (0x200, 0) ∧
    (nxt (withKey 3 (withKey 5 (fetching 0xF60A)))).map (fun t => (t.pc, t.getV 6)) = some (0x202, 3) ∧
    (nxt (withKey 15 (fetching 0xF00A))).map (fun t => (t.pc, t.getV 0)) = some (0x202, 15) := by decide

/-- V65, V68, V69. -/
theorem test_timers :
    (nxt (((fetching 0xFF07).setDT 0x3C).setV 15 1)).map (·.getV 15) = some 0x3C ∧
    (nxt ((fetching 0xF015).setV 0 9)).map (fun t => (t.dt, t.st)) = some (9, 0) ∧
    (nxt ((fetching 0xF018).setV 0 9)).map (fun t => (t.dt, t.st)) = some (0, 9) := by decide

/-! ## Cycle, fetch, faults and the host interface -/

/-- V72, V74: a fetch at 0xFFE, and the pc's wrap at 2^16. -/
theorem test_fetch_at_the_top :
    (nxt { State.reset with pc := 0xFFE }).map (·.pc) = some 0x1000 ∧
    (nxt (({ State.reset with pc := 0xFFFE } : State).withFetchWord 16 0x1234)).map (·.pc) = some 0x234 ∧
    (nxt (({ State.reset with pc := 0xFFFE } : State).withFetchWord 16 0x0000)).map (·.pc) = some 0 := by decide

/-- V73, V75: a pc above 0xFFF, and an odd one. -/
theorem test_fetch_address :
    (nxt { fetching 0x0000 with pc := 0x1200 }).map (·.pc) = some 0x1202 ∧
    (nxt (({ State.reset with pc := 0x201 } : State).withFetchWord 16 0x6042)).map (fun t => (t.getV 0, t.pc)) =
      some (0x42, 0x203) := by decide

/-- V76: a latched block repeats the fault, still ticks, and is started again by reset. -/
theorem test_latched :
    let s : State := { State.reset with pc := 0xFFF, dt := 2, fault := some { cause := .memoryOutOfRange, pc := 0xFFF, op := none } }
    stepWith 0 s = (s, .fault .memoryOutOfRange) ∧ (tick s).dt = 1 ∧ (resetTx s).fault = none := by decide

/-- V77, and S6's other clause in the small: a load writes the image whether or not the latch is set. -/
theorem test_load_after_fault :
    let s : State := { State.reset with fault := some { cause := .stackOverflow, pc := 0x200, op := none } }
    (load [0x00, 0xE0] s).map (fun t => (t.readBytes 0x1FF 4, t.fault == s.fault)) = some ([0, 0x00, 0xE0, 0], true) := by
  decide

/-- V70, S9. -/
theorem test_tick :
    (tick { State.reset with dt := 0, st := 5 }).st = 4 ∧ (tick { State.reset with dt := 0, st := 5 }).dt = 0 := by decide

/-- S14: what reset leaves. The default font's ends are those of the P1 table of R351. -/
theorem test_reset :
    State.reset.pc = 0x200 ∧ State.reset.readBytes 0x000 5 = [0xF0, 0x90, 0x90, 0x90, 0xF0] ∧
    State.reset.readBytes 0x04B 6 = [0xF0, 0x80, 0xF0, 0x80, 0x80, 0] ∧ State.reset.MemCanonical := by decide

/-- A write of the reset value delists the byte, so equal memories are equal lists. -/
theorem test_memory_canonical :
    ((State.reset.writeByte 0x300 7).writeByte 0x300 0).mem = [] ∧
    ((State.reset.writeByte 0x301 7).writeByte 0x300 8).mem = ((State.reset.writeByte 0x300 8).writeByte 0x301 7).mem := by
  decide

/-! ## Witnesses: the hypotheses of the obligations can be met, at the ends of their ranges -/

/-- A block stopped by a RET on the empty stack. -/
def stopped : State := { State.reset with fault := some { cause := .stackUnderflow, pc := 0x200, op := some 0x00EE } }

theorem witness_StepRunsTheDecodedInstruction :
    let s : State := ({ State.reset with pc := 0x1FFE } : State).withFetchWord 16 0xF255
    s.Running ∧ s.pc.toNat % 4096 = 0xFFE ∧ s.Fetches (.storeRegs 2) := by decide

theorem witness_UnknownEncodingIsANoOp :
    State.reset.Running ∧ State.reset.fetchAddr < 0xFFF ∧
    decodeWord State.reset.cfg.decodeStrict State.reset.fetchWord = .error (.unknownEncoding 0) := by decide

theorem witness_FetchAtTheTopLatchesMemoryOutOfRange :
    let s : State := { State.reset with pc := 0xFFF }
    let t : State := { State.reset with pc := 0xFFFF }
    s.Running ∧ s.pc.toNat % 4096 = 0xFFF ∧ t.Running ∧ t.pc.toNat % 4096 = 0xFFF := by decide

theorem witness_LatchedStepExecutesNothing :
    stopped.fault = some { cause := .stackUnderflow, pc := 0x200, op := some 0x00EE } := by decide

theorem witness_FaultingStepCommitsNothing_fetch :
    ∃ t r, step { State.reset with pc := 0xFFF } = .next t ∧ t.fault = some r := ⟨_, _, by rfl, by rfl⟩

theorem witness_FaultingStepCommitsNothing_execute :
    ∃ t r, step (fetching 0x00EE) = .next t ∧ t.fault = some r :=
  ⟨{ fetching 0x00EE with fault := some { cause := .stackUnderflow, pc := 0x200, op := some 0x00EE } }, _, rfl, rfl⟩

/-- Every cause and every instruction that can raise it, one byte or entry past the last good one. -/
theorem witness_faults_raised :
    faultOf (.call 0) { State.reset with sp := 16 } = some .stackOverflow ∧
    faultOf .ret State.reset = some .stackUnderflow ∧
    faultOf (.drw 0 0 5) (State.reset.setI 0xFFC) = some .memoryOutOfRange ∧
    faultOf (.ldB 0) (State.reset.setI 0xFFE) = some .memoryOutOfRange ∧
    faultOf (.ldB 0) (State.reset.setI 0x104F) = some .glyphTableWrite ∧
    faultOf (.storeRegs 15) (State.reset.setI 0xFF1) = some .memoryOutOfRange ∧
    faultOf (.storeRegs 0) (State.reset.setI 0x04F) = some .glyphTableWrite ∧
    faultOf (.loadRegs 1) (State.reset.setI 0xFFF) = some .memoryOutOfRange ∧
    faultOf (.skp 0) (State.reset.setV 0 0x10) = some .keyIndexOutOfRange ∧
    faultOf (.sknp 0) (State.reset.setV 0 0x10) = some .keyIndexOutOfRange := by decide

/-- The same instructions at the last good one. -/
theorem witness_faults_not_raised :
    faultOf (.call 0) { State.reset with sp := 15 } = none ∧
    faultOf .ret { State.reset with sp := 1 } = none ∧
    faultOf (.drw 0 0 4) (State.reset.setI 0xFFC) = none ∧ faultOf (.drw 0 0 0) (State.reset.setI 0xFFF) = none ∧
    faultOf (.ldB 0) (State.reset.setI 0xFFD) = none ∧ faultOf (.ldB 0) (State.reset.setI 0x050) = none ∧
    faultOf (.storeRegs 15) (State.reset.setI 0xFF0) = none ∧ faultOf (.storeRegs 0) (State.reset.setI 0x050) = none ∧
    faultOf (.loadRegs 0) (State.reset.setI 0xFFF) = none ∧
    faultOf (.skp 0) (State.reset.setV 0 15) = none ∧ faultOf (.sknp 0) (State.reset.setV 0 15) = none := by decide

/-- A machine of whose parameters P2 and P5 are Refuse. -/
def refusing : Config := { Config.default with vfAliasOrder := .refuse, glyphAddrOor := .refuse }

theorem witness_refusals :
    refusalOf (.sub 15 0) (State.resetWith refusing) = some .vfAliasOrder ∧
    refusalOf (.shr 15) (State.resetWith refusing) = some .vfAliasOrder ∧
    refusalOf (.subn 15 0) (State.resetWith refusing) = some .vfAliasOrder ∧
    refusalOf (.shl 15) (State.resetWith refusing) = some .vfAliasOrder ∧
    refusalOf (.ldF 0) ((State.resetWith refusing).setV 0 16) = some .glyphAddress ∧
    refusalOf (.sub 14 0) (State.resetWith refusing) = none ∧
    refusalOf (.ldF 0) ((State.resetWith refusing).setV 0 15) = none ∧
    refusalOf (.sub 15 0) State.reset = none ∧ State.reset.Running := by decide

theorem witness_RunningStepAnswersNextUnlessParametersRefuse :
    State.reset.Running ∧ State.reset.cfg.vfAliasOrder ≠ .refuse ∧ State.reset.cfg.glyphAddrOor ≠ .refuse := by decide

theorem witness_StepResultNamesTheLatchedCause :
    (stepWith 0 State.reset).2 = .ok ∧ (stepWith 0 (fetching 0x00EE)).2 = .fault .stackUnderflow ∧
    (stepWith 0 stopped).2 = .fault .stackUnderflow ∧
    (stepWith 0 (fetchingUnder refusing 0x8F05)).2 = .refused .vfAliasOrder := by decide

theorem witness_StepKeepsMemoryCanonical :
    State.reset.MemCanonical ∧ step State.reset = .next { State.reset with pc := 0x202 } :=
  ⟨by decide, rfl⟩

theorem witness_GlyphsIntact : State.reset.cfg.glyphWrite = .fault ∧ State.reset.GlyphsIntact :=
  ⟨rfl, fun _ _ => rfl⟩

theorem witness_OnlyTheNamedPartsChange :
    State.reset.Running ∧ exec (.ldI 0x300) State.reset = .next (State.reset.setI 0x300) ∧
    (State.reset.setI 0x300).Running := ⟨rfl, rfl, rfl⟩

theorem witness_RegistersChangeOnlyAsDestinationOrFlag :
    exec (.ldI 0x300) State.reset = .next (State.reset.setI 0x300) ∧ namesDestination 15 (.ldI 0x300) = false ∧
    writesFlag (.ldI 0x300) = false ∧ namesDestination 3 (.loadRegs 2) = false := ⟨rfl, rfl, rfl, by decide⟩

theorem witness_StepNeverWritesKeypadNorClearsChanged :
    let s : State := { State.reset with changed := true }
    step s = .next { s with pc := 0x202 } ∧ s.changed = true := ⟨rfl, rfl⟩

theorem witness_FaultedBlockStaysStoppedUntilReset :
    stopped.fault = some { cause := .stackUnderflow, pc := 0x200, op := some 0x00EE } ∧
    Transaction.reset ∉ [.step 0, .tick, .keySet 3 true, .load [1], .clearChanged, .readDisplay, .readFault] := by decide

theorem witness_RefusalMarkIsKeptAndNeedsAParameter :
    Config.default.vfAliasOrder ≠ .refuse ∧ Config.default.glyphAddrOor ≠ .refuse ∧
    (Run.transact { state := fetchingUnder refusing 0x8F05, refusal := none } (.step 0)).refusal = some .vfAliasOrder := by
  decide

theorem witness_CompositorFlipsExactlyTheCoveredPixels :
    (List.replicate 15 (0xFF : Byte)).length ≤ 15 ∧ spriteCovers 60 31 [0xC3, 0x81] 0 3 = true ∧
    (onePixel 0 3).pixel 0 3 = true := by decide

theorem witness_DrwDrawsTheSpriteAtIndex :
    0 < 16 ∧ 15 < 16 ∧ (State.reset.setI 0xFF1).indexBase + 15 ≤ 4096 ∧ ¬ (State.reset.setI 0xFFF).indexBase + 2 ≤ 4096 ∧
    (0 : Reg) ≠ 15 := by decide

theorem witness_call_and_ret_depths :
    ({ State.reset with sp := 1 } : State).sp ≠ 0 ∧ ({ State.reset with sp := 16 } : State).sp ≠ 0 ∧
    ({ State.reset with sp := 15 } : State).sp.val < 16 ∧ State.reset.sp.val < 16 := by decide

theorem witness_JpJumpsToItsAddress :
    (fetching 0x1200).Fetches (.jp 0x200) ∧ (fetching 0x1200).pc.toNat = (0x200 : Addr).toNat ∧ State.reset.Running := by
  decide

theorem witness_SubtractsAndShifts : (14 : Reg) ≠ 15 := by decide

/-- Each of the four forms, with the result and the flag of V32, V34, V38 and V40. -/
theorem witness_FlagRegisterAsDestinationFollowsP2 :
    let s : State := (State.reset.setV 15 9).setV 0 4
    (∃ res flg, Instr.sub 15 0 = .sub 15 0 ∧ res = ((s.getV 15).toNat + 256 - (s.getV 0).toNat) % 256 ∧
      flg = (if (s.getV 0).toNat ≤ (s.getV 15).toNat then 1 else 0) ∧ res = 5 ∧ flg = 1) ∧
    (∃ res flg, res = ((s.getV 0).toNat + 256 - (s.getV 15).toNat) % 256 ∧
      flg = (if (s.getV 15).toNat ≤ (s.getV 0).toNat then 1 else 0) ∧ res = 0xFB ∧ flg = 0) ∧
    (∃ res flg, res = (s.getV 15).toNat / 2 ∧ flg = (s.getV 15).toNat % 2 ∧ res = 4 ∧ flg = 1) ∧
    (∃ res flg, res = (s.getV 15).toNat * 2 % 256 ∧ flg = (s.getV 15).toNat / 128 ∧ res = 18 ∧ flg = 0) ∧
    s.cfg.vfAliasOrder = .docOrder ∧ refusing.vfAliasOrder = .refuse ∧
    ({ Config.default with vfAliasOrder := .flagLast } : Config).vfAliasOrder = .flagLast :=
  ⟨⟨_, _, rfl, rfl, rfl, by decide, by decide⟩, ⟨_, _, rfl, rfl, by decide, by decide⟩,
    ⟨_, _, rfl, rfl, by decide, by decide⟩, ⟨_, _, rfl, rfl, by decide, by decide⟩, rfl, rfl, rfl⟩

theorem witness_GlyphAddressIsFiveTimesVx :
    ((State.reset.setV 0 15).getV 0).toNat ≤ 15 ∧ (State.reset.setV 0 16).cfg.glyphAddrOor = .formula ∧
    15 < (((State.resetWith refusing).setV 0 16).getV 0).toNat ∧
    ((State.resetWith refusing).setV 0 16).cfg.glyphAddrOor = .refuse := by decide

theorem witness_GlyphAddressPointsAtTheDigitsGlyph :
    ((State.reset.setV 0 15).getV 0).toNat ≤ 15 ∧ (State.reset.setV 0 15).GlyphsIntact ∧
    5 * ((State.reset.setV 0 15).getV 0).toNat + 4 < 80 := ⟨by decide, fun _ _ => rfl, by decide⟩

theorem witness_stores_at_the_index :
    (State.reset.setI 0xFFD).indexBase + 3 ≤ 4096 ∧ 0x050 ≤ (State.reset.setI 0x1050).indexBase ∧
    ({ Config.default with glyphWrite := .allow } : Config).glyphWrite = .allow ∧
    (State.reset.setI 0xFF0).indexBase + (15 : Reg).val + 1 ≤ 4096 ∧ 0x050 ≤ (State.reset.setI 0xFF0).indexBase ∧
    (State.reset.setI 0xFFF).indexBase + (0 : Reg).val + 1 ≤ 4096 := by decide

theorem witness_StoredWordIsFetchedNext :
    let s : State := { State.reset with i := 0x2FF, pc := 0x1300 }
    s.indexBase + (2 : Reg).val + 1 ≤ 4096 ∧ 0x050 ≤ s.indexBase ∧ (2 : Reg).val = (1 : Reg).val + 1 ∧ (2 : Reg) ≤ 2 ∧
    s.pc.toNat % 4096 = s.indexBase + (1 : Reg).val := by decide

theorem witness_SkipsFollowTheNamedKey :
    ((State.reset.setV 0 15).getV 0).toNat = (15 : Key).val ∧
    (State.resetWith { Config.default with keyIndexOor := .mask }).cfg.keyIndexOor = .mask ∧
    (((State.resetWith { Config.default with keyIndexOor := .mask }).setV 0 0x1F).getV 0).toNat % 16 = (15 : Key).val ∧
    (withKey 15 State.reset).isDown 15 = true := by decide

theorem witness_WaitForKey :
    let s := withKey 3 (withKey 5 State.reset)
    s.isDown 3 = true ∧ (∀ j : Key, j < 3 → s.isDown j = false) ∧ (∀ k : Key, State.reset.isDown k = false) := by decide

theorem witness_WaitingStepLeavesTheStateAsItWas :
    (fetching 0xF60A).Fetches (.ldVxK 6) ∧ ∀ k : Key, (fetching 0xF60A).isDown k = false := by decide

theorem witness_LoadCopiesTheImageOrRejectsIt :
    (List.replicate 3584 (0 : Byte)).length ≤ 3584 ∧ 3584 < (List.replicate 3585 (0 : Byte)).length :=
  ⟨Nat.le_of_eq List.length_replicate, Nat.lt_of_lt_of_eq (Nat.lt_succ_self 3584) List.length_replicate.symm⟩

theorem witness_RndMasksTheStepsRandomByte : (fetching 0xC00F).Fetches (.rnd 0 0x0F) := by decide

/-- A fetched CLS, and a stopped block at a fetched Cxkk. -/
theorem witness_OnlyRndReadsTheStepsRandomByte :
    (∀ x kk, ¬ (fetching 0x00E0).Fetches (.rnd x kk)) ∧
    ∀ x kk, ¬ ({ fetching 0xC00F with fault := stopped.fault } : State).Fetches (.rnd x kk) := by
  refine ⟨fun x kk h => ?_, fun x kk h => ?_⟩
  · have hd : decodeWord .strict (fetching 0x00E0).fetchWord = .ok .cls := by decide
    exact Instr.noConfusion (Except.ok.inj (hd.symm.trans h.2.2))
  · exact absurd h.1 (by decide)

theorem witness_TransactionsKeepParametersAndCanonicalMemory :
    (State.reset.writeByte 0xFFF 7).MemCanonical ∧ (State.reset.writeByte 0xFFF 7).mem ≠ [] := by decide

theorem witness_encoding :
    (Instr.drw 15 15 15).WellFormed ∧ decodeWord .strict 0x8356#16 = .ok (.shr 3) ∧ encode (.shr 3) = 0x8306#16 ∧
    decodeWord .loose 0x5011#16 = .ok (.seReg 0 1) ∧ encode (.seReg 0 1) = 0x5010#16 ∧
    decodeWord .loose 0x901F#16 = .ok (.sneReg 0 1) ∧ encode (.sneReg 0 1) = 0x9010#16 ∧
    decodeWord .strict 0x00E1#16 = .error (.unknownEncoding 0x00E1) := by decide

end Sys2Proof.Tests
end

section
/-! SUPPORT. The states an instruction can end in, said once by the write that leads there, and what follows for single
registers (10_state.md R10, R11) and for the parts no step writes (R19, R20). -/

namespace Sys2Proof.Machine

/-! ## What an instruction can commit -/

/-- The states instruction i may leave s in: a raised fault, or one of the writes of sections 41 to 45. A write to a V
register carries the reason 10_state.md R11 gives for it: the register is a destination of i, or i writes the flag. -/
inductive Commits (i : Instr) (s : State) : State → Prop where
  | raise (f : Fault) : Commits i s (s.raise f i)
  | jump (w : Word) : Commits i s (s.setPC w)
  | skip (c : Bool) : Commits i s (s.skipIf c)
  | call (h : s.sp.val < 16) (w : Word) : Commits i s ((s.push h s.pc).setPC w)
  | ret (h : 0 < s.sp.val) : Commits i s (s.popPC h)
  | register {x : Reg} (b : Byte) (hx : namesDestination x i = true) : Commits i s (s.setV x b)
  | random {x : Reg} (b : Byte) (hx : namesDestination x i = true) : Commits i s (s.rndTaken.setV x b)
  | registersUpTo {x : Reg} (f : Nat → Byte) (hx : ∀ r ≤ x, namesDestination r i = true) :
      Commits i s (s.setVUpTo x f)
  | resultThenFlag {x : Reg} (res : Byte) (flg : Bool) (hx : namesDestination x i = true) (hf : writesFlag i = true) :
      Commits i s (s.writeResultThenFlag x res flg)
  | flagThenResult {x : Reg} (res : Byte) (flg : Bool) (hx : namesDestination x i = true) (hf : writesFlag i = true) :
      Commits i s (s.writeFlagThenResult x res flg)
  | index (w : Word) : Commits i s (s.setI w)
  | delayTimer (b : Byte) : Commits i s (s.setDT b)
  | soundTimer (b : Byte) : Commits i s (s.setST b)
  | bytes (base : Nat) (bs : List Byte) : Commits i s (s.writeBytes base bs)
  | clear (g : Grid) : Commits i s (s.setGrid g)
  | draw (g : Grid) (flg : Bool) (hf : writesFlag i = true) : Commits i s ((s.setGrid g).setV vf (flagByte flg))

variable {i : Instr} {s t : State}

/-- A checked write either raises the check's fault or happens. -/
theorem Commits.of_checked {check : Option Fault} {rest : State} (h : s.checked check i rest = .next t)
    (hrest : Commits i s rest) : Commits i s t := by
  rcases s.checked_cases h with ⟨f, -, h⟩ | ⟨-, h⟩
  · cases h; exact .raise f
  · cases h; exact hrest

/-- Whatever P2 says of x = 0xF, an aliased write writes the result and the flag in one of the two orders. -/
theorem Commits.of_writeAliased {x : Reg} {res : Byte} {flg : Bool} (h : s.writeAliased x res flg = .next t)
    (hx : namesDestination x i = true) (hf : writesFlag i = true) : Commits i s t := by
  rcases s.writeAliased_cases h with ⟨-, h⟩ | ⟨-, -, h⟩ | ⟨-, -, h⟩ | ⟨-, -, h⟩
  · cases h; exact .resultThenFlag res flg hx hf
  · cases h; exact .flagThenResult res flg hx hf
  · cases h; exact .resultThenFlag res flg hx hf
  · cases h

/-- Every next state of the execute phase is one the instruction may commit (40_cycle.md R83, R86). -/
theorem exec_commits (h : exec i s = .next t) : Commits i s t := by
  cases i
  case cls => cases h; exact .clear _
  case jp | jpV0 => cases h; exact .jump _
  case seByte | sneByte | seReg | sneReg => cases h; exact .skip _
  case ldByte | addByte | ldReg | orReg | andReg | xorReg | ldVxDT =>
    cases h; exact .register _ (decide_eq_true rfl)
  case rnd => cases h; exact .random _ (decide_eq_true rfl)
  case ldI | addI => cases h; exact .index _
  case ldDT => cases h; exact .delayTimer _
  case ldST => cases h; exact .soundTimer _
  case addReg => cases h; exact .resultThenFlag _ _ (decide_eq_true rfl) rfl
  case sub | subn | shr | shl => exact .of_writeAliased h (decide_eq_true rfl) rfl
  case drw => exact .of_checked h (.draw _ _ rfl)
  case ldB | storeRegs => exact .of_checked h (.bytes _ _)
  case loadRegs => exact .of_checked h (.registersUpTo _ fun _ hr => decide_eq_true hr)
  case ret =>
    simp only [exec, execRet] at h
    split at h
    · cases h; exact .ret _
    · cases h; exact .raise _
  case call =>
    simp only [exec, execCall] at h
    split at h
    · cases h; exact .call _ _
    · cases h; exact .raise _
  case skp | sknp =>
    simp only [exec, execSkp, execSknp] at h
    split at h
    · cases h; exact .raise _
    · cases h; exact .skip _
  case ldVxK =>
    simp only [exec, execLdVxK] at h
    split at h
    · cases h; exact .register _ (decide_eq_true rfl)
    · cases h; exact .jump _
  case ldF =>
    simp only [exec, execLdF] at h
    split at h
    · cases h
    · cases h; exact .index _

/-! ## Single registers (10_state.md R10, R11) -/

theorem ne_of_namesDestination {r x : Reg} (hr : namesDestination r i = false) (hx : namesDestination x i = true) :
    r ≠ x := by
  rintro rfl
  exact Bool.false_ne_true (hr.symm.trans hx)

theorem ne_vf_of_writesFlag {r : Reg} (hr : r = 15 → writesFlag i = false) (hf : writesFlag i = true) : r ≠ vf :=
  fun h => Bool.false_ne_true ((hr h).symm.trans hf)

/-- A register that is neither a destination nor the flag of a flag writer reads as before. -/
theorem Commits.getV_eq {r : Reg} (h : Commits i s t) (hr : namesDestination r i = false)
    (hvf : r = 15 → writesFlag i = false) : t.getV r = s.getV r := by
  cases h with
  | register b hx => exact s.getV_setV_ne (ne_of_namesDestination hr hx) b
  | random b hx => simp [State.getV_setV_ne _ (ne_of_namesDestination hr hx)]
  | @registersUpTo x f hx =>
    have hrx : ¬ r ≤ x := fun hle => ne_of_namesDestination hr (hx r hle) rfl
    rw [State.getV_setVUpTo, if_neg hrx]
  | resultThenFlag res flg hx hf =>
    rw [State.getV_writeResultThenFlag, if_neg (ne_vf_of_writesFlag hvf hf), if_neg (ne_of_namesDestination hr hx)]
  | flagThenResult res flg hx hf =>
    rw [State.getV_writeFlagThenResult, if_neg (ne_of_namesDestination hr hx), if_neg (ne_vf_of_writesFlag hvf hf)]
  | draw g flg hf => simp [State.getV_setV_ne _ (ne_vf_of_writesFlag hvf hf)]
  | raise | jump | skip | call | ret | index | delayTimer | soundTimer | bytes | clear => simp

/-- Settles O14: each register write an instruction commits carries R11's reason for it. -/
theorem registersChangeOnlyAsDestinationOrFlag : Obligations.RegistersChangeOnlyAsDestinationOrFlag :=
  fun _ _ _ _ h hr hvf => (exec_commits h).getV_eq hr hvf

/-! ## The parts no step writes (10_state.md R19, R20, 00_scope.md R4) -/

/-- The only write to the changed flag sets it; none touches the keypad or the parameters. -/
theorem Commits.keeps_keys_cfg_changed (h : Commits i s t) :
    t.keys = s.keys ∧ t.cfg = s.cfg ∧ (s.changed = true → t.changed = true) := by
  cases h with
  | resultThenFlag => simp [State.writeResultThenFlag]
  | flagThenResult => simp [State.writeFlagThenResult]
  | raise | jump | skip | call | ret | register | random | registersUpTo | index | delayTimer | soundTimer | bytes
  | clear | draw => simp

/-- Settles O15: a step latches a fetch fault, advances the pc, or commits what the decoded instruction may. -/
theorem stepNeverWritesKeypadNorClearsChanged : Obligations.StepNeverWritesKeypadNorClearsChanged := by
  intro s t h
  rcases step_cases h with ⟨f, -, h⟩ | ⟨-, -, h⟩ | ⟨-, -, -, h⟩ | ⟨-, -, i, -, h⟩
  · cases h
  · cases h; simp
  · cases h; simp
  · simpa using (exec_commits h.symm).keeps_keys_cfg_changed

end Sys2Proof.Machine
end

section
/-! SUPPORT. What a step and the other host transactions do to memory (20_memory.md): the states an instruction leaves
hold the old memory, or bytes stored where R42 and R44 let it write. The invariants of memory follow from that alone. -/

namespace Sys2Proof.Machine

variable {i : Instr} {s t : State}

/-! ## The check of a write (R42, R44) -/

/-- Where a write of at least one byte passes its checks: inside memory and, unless P3 allows it, above the glyph table. -/
theorem checkWrite_eq_none_of_pos {p3 : GlyphWrite} {base len : Nat} (hlen : 0 < len) :
    checkWrite p3 base len = none ↔ base + len ≤ memSize ∧ (p3 = .allow ∨ 0x050 ≤ base) := by
  simp [checkWrite_eq_none, checkRange_eq_none, checkGlyph_eq_none, hlen.ne']

/-! ## The memory an instruction leaves -/

/-- The memory of t is that of s, or that of s with bytes stored where an instruction may write them. -/
inductive MemoryMove (s t : State) : Prop where
  | kept (hmem : t.mem = s.mem)
  | stored (base : Nat) (bs : List Byte) (hrange : base + bs.length ≤ memSize)
      (hglyph : s.cfg.glyphWrite = .allow ∨ 0x050 ≤ base) (hmem : t.mem = (s.writeBytes base bs).mem)

/-- A store that runs its checks first keeps memory where they raise a fault, and is permitted where they pass. -/
theorem MemoryMove.of_checkedStore {base len : Nat} {bs : List Byte}
    (h : s.checked (checkWrite s.cfg.glyphWrite base len) i (s.writeBytes base bs) = .next t) (hlen : bs.length = len)
    (hpos : 0 < len) : MemoryMove s t := by
  subst hlen
  rcases s.checked_cases h with ⟨f, -, h⟩ | ⟨hcheck, h⟩
  · cases h; exact .kept (by simp)
  · cases h
    obtain ⟨hrange, hglyph⟩ := (checkWrite_eq_none_of_pos hpos).1 hcheck
    exact .stored base bs hrange hglyph rfl

/-- A check leaves memory to the rest of the instruction. -/
theorem State.checked_keeps_mem {check : Option Fault} {rest : State} (h : s.checked check i rest = .next t)
    (hrest : rest.mem = s.mem) : t.mem = s.mem := by
  rcases s.checked_cases h with ⟨f, -, h⟩ | ⟨-, h⟩
  · cases h; simp
  · cases h; exact hrest

theorem State.writeAliased_keeps_mem {x : Reg} {res : Byte} {flg : Bool} (h : s.writeAliased x res flg = .next t) :
    t.mem = s.mem := by
  rcases s.writeAliased_cases h with ⟨-, h⟩ | ⟨-, -, h⟩ | ⟨-, -, h⟩ | ⟨-, -, h⟩
  · cases h; rfl
  · cases h; rfl
  · cases h; rfl
  · cases h

/-- LD B and LD [I] store where their checks pass; no other instruction writes memory (10_state.md section 1). -/
theorem exec_memoryMove (h : exec i s = .next t) : MemoryMove s t := by
  cases i
  case ldB => exact .of_checkedStore h rfl (by decide)
  case storeRegs x => exact .of_checkedStore h (s.vUpTo_length x) x.val.succ_pos
  all_goals refine .kept ?_
  case drw => exact State.checked_keeps_mem h rfl
  case loadRegs => exact State.checked_keeps_mem h (by simp)
  case sub | subn | shr | shl => exact State.writeAliased_keeps_mem h
  case seByte | sneByte | seReg | sneReg => cases h; simp
  case ret | call | skp | sknp | ldVxK | ldF =>
    simp only [exec, execRet, execCall, execSkp, execSknp, execLdVxK, execLdF] at h
    split at h <;> cases h <;> simp
  all_goals cases h; rfl

theorem State.writeBytes_advance (s : State) (base : Nat) (bs : List Byte) :
    s.advance.writeBytes base bs = (s.writeBytes base bs).advance := by
  induction bs generalizing s base with
  | nil => rfl
  | cons b bs ih => exact ih (s.writeByte base b) (base + 1)

/-- The pc advance before the execute phase leaves memory as it is. -/
theorem MemoryMove.of_advance (h : MemoryMove s.advance t) : MemoryMove s t := by
  cases h with
  | kept hmem => exact .kept hmem
  | stored base bs hrange hglyph hmem =>
    rw [State.writeBytes_advance] at hmem
    exact .stored base bs hrange hglyph hmem

/-- Only the execute phase of a step writes memory (40_cycle.md R80, R84, R86). -/
theorem step_memoryMove (h : step s = .next t) : MemoryMove s t := by
  rcases step_cases h with ⟨f, -, h⟩ | ⟨-, -, h⟩ | ⟨-, -, -, h⟩ | ⟨-, -, i, -, h⟩
  · cases h
  · cases h; exact .kept rfl
  · cases h; exact .kept rfl
  · exact (exec_memoryMove h.symm).of_advance

theorem step_keeps_cfg (h : step s = .next t) : t.cfg = s.cfg := by
  obtain ⟨-, hcfg, -⟩ := stepNeverWritesKeypadNorClearsChanged s t h
  exact hcfg

/-! ## The canonical form (R40, R42, R45) -/

/-- Settles O9: the bytes a step stores lie inside memory, and such a store keeps the form. -/
theorem stepKeepsMemoryCanonical : Obligations.StepKeepsMemoryCanonical := by
  intro s t hs h
  unfold State.MemCanonical
  rw [step_keeps_cfg h]
  cases step_memoryMove h with
  | kept hmem => rwa [hmem]
  | stored base bs hrange _ hmem =>
    rw [hmem]
    exact State.writeBytes_wf hs hrange

/-! ## The glyph table (R41, R44) -/

theorem State.glyphsIntact_resetWith (c : Config) : (State.resetWith c).GlyphsIntact := fun _ _ => rfl

/-- The table depends on the font and on memory alone. -/
theorem State.GlyphsIntact.of_mem (hs : s.GlyphsIntact) (hcfg : t.cfg = s.cfg) (hmem : t.mem = s.mem) :
    t.GlyphsIntact := by
  intro a ha
  rw [State.readByte_of_mem hcfg hmem, hcfg]
  exact hs a ha

/-- A store that starts above the table leaves it alone. -/
theorem State.GlyphsIntact.writeBytes (hs : s.GlyphsIntact) {base : Nat} (hbase : 0x050 ≤ base) (bs : List Byte) :
    (s.writeBytes base bs).GlyphsIntact := by
  intro a ha
  rw [State.readByte_writeBytes_outside s (.inl (by omega)), State.writeBytes_cfg]
  exact hs a ha

theorem step_keeps_glyphs (h : step s = .next t) (hp3 : s.cfg.glyphWrite = .fault) (hs : s.GlyphsIntact) :
    t.GlyphsIntact := by
  have hcfg := step_keeps_cfg h
  cases step_memoryMove h with
  | kept hmem => exact hs.of_mem hcfg hmem
  | stored base bs _ hglyph hmem =>
    have hbase : 0x050 ≤ base := hglyph.resolve_left (by simp [hp3])
    exact (hs.writeBytes hbase bs).of_mem (by simp [hcfg]) hmem

/-- A step transaction moves memory as its step does: the random byte it offers and drops is no part of memory. -/
theorem stepWith_keeps_glyphs (rnd : Byte) (hp3 : s.cfg.glyphWrite = .fault) (hs : s.GlyphsIntact) :
    (stepWith rnd s).1.GlyphsIntact := by
  rcases stepWith_cases rnd s with ⟨r, -, h⟩ | ⟨-, t, hstep, h⟩ | ⟨-, w, -, h⟩
  · rwa [h]
  · rw [h]
    have ht : t.GlyphsIntact := step_keeps_glyphs hstep hp3 (hs.of_mem rfl rfl)
    exact ht.of_mem rfl rfl
  · rwa [h]

/-- A load stores from 0x200 upwards, or nothing (70_reset_and_hazards.md R352). -/
theorem load_keeps_glyphs {bytes : List Byte} (h : load bytes s = some t) (hs : s.GlyphsIntact) : t.GlyphsIntact := by
  unfold load at h
  split_ifs at h
  cases h
  exact hs.writeBytes (by decide) bytes

/-- Settles O11: of the eight transactions only step, load and reset write memory; a step stores above the table, a load
above 0x200, and a reset puts the font back. -/
theorem glyphTableIsNeverOverwritten : Obligations.GlyphTableIsNeverOverwritten := by
  intro tx s hp3 hs
  cases tx with
  | reset => exact (State.glyphsIntact_resetWith s.cfg).of_mem rfl rfl
  | step rnd => exact stepWith_keeps_glyphs rnd hp3 hs
  | load bytes =>
    cases h : load bytes s with
    | some t => simpa [transact, h] using load_keeps_glyphs h hs
    | none => simpa [transact, h] using hs
  | tick | keySet | clearChanged => exact hs.of_mem rfl rfl
  | readDisplay | readFault => exact hs

/-! ## A stored word is fetched (R53, R46) -/

/-- A register dump whose range may be written stores its registers. -/
theorem exec_storeRegs {x : Reg} (hrange : s.indexBase + x.val + 1 ≤ 4096)
    (hglyph : s.cfg.glyphWrite = .allow ∨ 0x050 ≤ s.indexBase) :
    exec (.storeRegs x) s = .next (s.writeBytes s.indexBase (s.vUpTo x)) := by
  have hcheck := (checkWrite_eq_none_of_pos x.val.succ_pos).2 ⟨hrange, hglyph⟩
  simp only [exec, execStoreRegs, State.checked, hcheck]

/-- Register r of a dump is read back at offset r. -/
theorem State.readByte_writeBytes_vUpTo (s : State) (base : Nat) {r x : Reg} (hr : r ≤ x) :
    (s.writeBytes base (s.vUpTo x)).readByte (base + r.val) = s.getV r := by
  have hin : base ≤ base + r.val ∧ base + r.val - base < (s.vUpTo x).length := by
    have hrx : r.val ≤ x.val := hr
    rw [State.vUpTo_length]
    omega
  rw [State.readByte_writeBytes, dif_pos hin, State.vUpTo_getElem]
  simp

/-- Settles O43: the two bytes at the fetch address are the two registers dumped there. -/
theorem storedWordIsFetchedNext : Obligations.StoredWordIsFetchedNext := by
  intro x k k' s hrange hglyph hk' hle hpc
  refine ⟨_, exec_storeRegs hrange hglyph, ?_⟩
  have hkx : k ≤ x := le_trans (Fin.le_def.2 (by omega)) hle
  have hlo : s.indexBase + k.val + 1 = s.indexBase + k'.val := by omega
  have hfetch : (s.writeBytes s.indexBase (s.vUpTo x)).fetchAddr = s.indexBase + k.val := by
    rw [State.fetchAddr_of_pc (s.writeBytes_pc _ _)]
    exact hpc
  rw [State.fetchWord, hfetch, hlo, s.readByte_writeBytes_vUpTo _ hkx, s.readByte_writeBytes_vUpTo _ hle]
  rfl

/-! ## The fetch check (R46) -/

/-- Settles O3: of what a step can do, only the fetch fault is left for a running block that fetches at 0xFFF. -/
theorem fetchAtTheTopLatchesMemoryOutOfRange : Obligations.FetchAtTheTopLatchesMemoryOutOfRange := by
  intro s hrun hpc
  have hfetch : s.fetchAddr = 0xFFF := hpc
  rcases step_cases (rfl : step s = step s) with ⟨f, hf, -⟩ | ⟨-, -, h⟩ | ⟨-, hlt, -⟩ | ⟨-, hlt, -⟩
  · exact absurd (hrun.symm.trans hf) (by simp)
  · exact h
  · exact absurd hfetch hlt.ne
  · exact absurd hfetch hlt.ne

end Sys2Proof.Machine
end

section
/-! SUPPORT. The decoder, the encoder and the opcode map agree (30_encoding.md). What the decoder answers is said once,
as a relation between the word and the answer; what the rows of the map select is read off the table. -/

namespace Sys2Proof

variable {p6 : DecodeStrict} {w : Word} {i : Instr} {row : OpRow}

/-! ## A word is made of its fields (R60) -/

theorem formatA_of_fields {c : BitVec 4} (hc : fieldC w = c) : formatA c (fieldNNN w) = w := by
  subst hc
  exact (BitVec.extractLsb'_append_extractLsb'_eq_extractLsb' rfl).trans BitVec.extractLsb'_eq_self

theorem formatRI_of_fields {c : BitVec 4} {kk : Byte} (hc : fieldC w = c) (hkk : fieldKK w = kk) :
    formatRI c (regOf (fieldX w)) kk = w := by
  subst hc hkk
  have hcx : fieldC w ++ fieldX w = w.extractLsb' 8 8 := BitVec.extractLsb'_append_extractLsb'_eq_extractLsb' rfl
  rw [formatRI, regBits_regOf, hcx]
  exact wordOfBytes_extract w

theorem formatRR_of_fields {c n : BitVec 4} (hc : fieldC w = c) (hn : fieldN w = n) :
    formatRR c (regOf (fieldX w)) (regOf (fieldY w)) n = w := by
  subst hc hn
  have hcx : fieldC w ++ fieldX w = w.extractLsb' 8 8 := BitVec.extractLsb'_append_extractLsb'_eq_extractLsb' rfl
  have hcxy : w.extractLsb' 8 8 ++ fieldY w = w.extractLsb' 4 12 :=
    BitVec.extractLsb'_append_extractLsb'_eq_extractLsb' rfl
  rw [formatRR, regBits_regOf, regBits_regOf, hcx, hcxy]
  exact (BitVec.extractLsb'_append_extractLsb'_eq_extractLsb' rfl).trans BitVec.extractLsb'_eq_self

/-! ## Decoding what was encoded (R62 to R64, R67, R68) -/

theorem decodeWord_encode (p6 : DecodeStrict) (hwf : i.WellFormed) : decodeWord p6 (encode i) = .ok i := by
  cases i with
  | cls | ret => rfl
  | jp | call | ldI | jpV0 => simp [encode, decodeWord]
  | seByte | sneByte | ldByte | addByte | rnd => simp [encode, decodeWord]
  | seReg | sneReg => simp [encode, decodeWord, decodeRegPair]
  | ldReg | orReg | andReg | xorReg | addReg | sub | shr | subn | shl => simp [encode, decodeWord, decodeRow8]
  | drw x y n => simp [encode, decodeWord, Nat.mod_eq_of_lt (of_decide_eq_true hwf)]
  | skp | sknp => simp [encode, decodeWord, decodeRowE]
  | ldVxDT | ldVxK | ldDT | ldST | addI | ldF | ldB | storeRegs | loadRegs => simp [encode, decodeWord, decodeRowF]

/-- The decoder consumes the two bytes of a word, whatever follows them. -/
theorem decode_bytesOfWord_append (h : decodeWord p6 w = .ok i) (rest : List Byte) :
    decode p6 (bytesOfWord w ++ rest) = .ok (i, rest) := by
  simp [bytesOfWord, decode, h]

/-- Settles O53: in each format the fields the decoder reads are those the encoder wrote. -/
theorem decodeOfEncodeIsTheInstruction : Obligations.DecodeOfEncodeIsTheInstruction := by
  intro p6 i rest hwf
  have h := decodeWord_encode p6 hwf
  exact ⟨h, decode_bytesOfWord_append h rest⟩

/-! ## What the decoder answers, said once -/

/-- The low nibbles of 8xy_ that no row of the map has (R65). -/
def unusedNibbles8 : List (BitVec 4) := [0x8, 0x9, 0xA, 0xB, 0xC, 0xD, 0xF]

/-- The low bytes of the rows Ex__ (R63). -/
def functionsE : List Byte := [0x9E, 0xA1]

/-- The low bytes of the rows Fx__ (R63). -/
def functionsF : List Byte := [0x07, 0x0A, 0x15, 0x18, 0x1E, 0x29, 0x33, 0x55, 0x65]

/-- The words outside the opcode map, by their fields (R65). -/
inductive OutsideMap (p6 : DecodeStrict) (w : Word) : Prop where
  | row0 (hc : fieldC w = 0x0#4) (hcls : w ≠ 0x00E0#16) (hret : w ≠ 0x00EE#16)
  | regPair (hp6 : p6 = .strict) (hc : fieldC w = 0x5#4 ∨ fieldC w = 0x9#4) (hn : fieldN w ≠ 0x0#4)
  | row8 (hc : fieldC w = 0x8#4) (hn : fieldN w ∈ unusedNibbles8)
  | rowE (hc : fieldC w = 0xE#4) (hkk : fieldKK w ∉ functionsE)
  | rowF (hc : fieldC w = 0xF#4) (hkk : fieldKK w ∉ functionsF)

/-- The answers the decoder may give on w: an instruction that w encodes, bit for bit or but for the bits that are not
read (R61, R64), or an unknown encoding where w is outside the map. -/
inductive Decoded (p6 : DecodeStrict) (w : Word) : Except DecodeError Instr → Prop where
  | encoded {i : Instr} (hwf : i.WellFormed) (hw : encode i = w) : Decoded p6 w (.ok i)
  | shr {x y : Reg} (hw : formatRR 0x8#4 x y 0x6#4 = w) : Decoded p6 w (.ok (.shr x))
  | shl {x y : Reg} (hw : formatRR 0x8#4 x y 0xE#4 = w) : Decoded p6 w (.ok (.shl x))
  | seReg {x y : Reg} {n : BitVec 4} (hp6 : p6 = .loose) (hw : formatRR 0x5#4 x y n = w) :
      Decoded p6 w (.ok (.seReg x y))
  | sneReg {x y : Reg} {n : BitVec 4} (hp6 : p6 = .loose) (hw : formatRR 0x9#4 x y n = w) :
      Decoded p6 w (.ok (.sneReg x y))
  | unknown (h : OutsideMap p6 w) : Decoded p6 w (.error (.unknownEncoding w))

theorem decodeRow0_decoded (hc : fieldC w = 0x0#4) : Decoded p6 w (decodeRow0 w) := by
  unfold decodeRow0
  split_ifs with hcls hret
  · exact .encoded rfl hcls.symm
  · exact .encoded rfl hret.symm
  · exact .unknown (.row0 hc hcls hret)

/-- The nibbles that reach the default arm of the switch are the unused ones. -/
theorem decodeRow8_decoded (hc : fieldC w = 0x8#4) : Decoded p6 w (decodeRow8 w) := by
  unfold decodeRow8
  split
  case h_7 hn => exact .shr (formatRR_of_fields hc hn)
  case h_9 hn => exact .shl (formatRR_of_fields hc hn)
  case h_10 =>
    refine .unknown (.row8 hc ?_)
    generalize fieldN w = n at *
    revert n
    decide
  all_goals exact .encoded rfl (formatRR_of_fields hc ‹_›)

theorem decodeRowE_decoded (hc : fieldC w = 0xE#4) : Decoded p6 w (decodeRowE w) := by
  unfold decodeRowE
  split
  case h_3 => exact .unknown (.rowE hc (by simp_all [functionsE]))
  all_goals exact .encoded rfl (formatRI_of_fields hc ‹_›)

theorem decodeRowF_decoded (hc : fieldC w = 0xF#4) : Decoded p6 w (decodeRowF w) := by
  unfold decodeRowF
  split
  case h_10 => exact .unknown (.rowF hc (by simp_all [functionsF]))
  all_goals exact .encoded rfl (formatRI_of_fields hc ‹_›)

theorem decodeRegPair_decoded (hc : fieldC w = 0x5#4 ∨ fieldC w = 0x9#4)
    (hloose : p6 = .loose → Decoded p6 w (.ok i))
    (hzero : fieldN w = 0x0#4 → Decoded p6 w (.ok i)) : Decoded p6 w (decodeRegPair p6 w i) := by
  unfold decodeRegPair
  split_ifs with h
  · exact h.elim hloose hzero
  · obtain ⟨hp6, hn⟩ := not_or.1 h
    have hstrict : p6 = .strict := by
      cases p6 with
      | strict => rfl
      | loose => exact absurd rfl hp6
    exact .unknown (.regPair hstrict hc hn)

theorem decodeWord_decoded (p6 : DecodeStrict) (w : Word) : Decoded p6 w (decodeWord p6 w) := by
  unfold decodeWord
  split
  -- the majors with a switch of their own
  case h_1 hc => exact decodeRow0_decoded hc
  case h_9 hc => exact decodeRow8_decoded hc
  case h_15 hc => exact decodeRowE_decoded hc
  case h_16 hc => exact decodeRowF_decoded hc
  -- formats A, RI and RRN: every bit is an operand
  case h_2 hc | h_3 hc | h_11 hc | h_12 hc => exact .encoded rfl (formatA_of_fields hc)
  case h_4 hc | h_5 hc | h_7 hc | h_8 hc | h_13 hc => exact .encoded rfl (formatRI_of_fields hc rfl)
  case h_14 hc =>
    refine .encoded (decide_eq_true (fieldN w).isLt) ?_
    simpa [encode] using formatRR_of_fields hc rfl
  -- SE and SNE of two registers: P6 decides whether the low nibble is read
  case h_6 hc =>
    exact decodeRegPair_decoded (.inl hc) (fun hp6 => .seReg hp6 (formatRR_of_fields hc rfl))
      fun hn => .encoded rfl (formatRR_of_fields hc hn)
  case h_10 hc =>
    exact decodeRegPair_decoded (.inr hc) (fun hp6 => .sneReg hp6 (formatRR_of_fields hc rfl))
      fun hn => .encoded rfl (formatRR_of_fields hc hn)
  -- the arms above are all sixteen nibbles
  case h_17 =>
    exfalso
    generalize fieldC w = c at *
    revert c
    decide

/-! ## The bits the decoder does not read (R61, R64) -/

theorem formatRR_and_FF0F (c : BitVec 4) (x y : Reg) (n : BitVec 4) :
    formatRR c x y n &&& 0xFF0F#16 = formatRR c x 0 n := by
  have hmask : (0xFF0F#16 : BitVec (4 + 4 + 4 + 4)) = 0xF#4 ++ 0xF#4 ++ 0x0#4 ++ 0xF#4 := rfl
  have hkeep (b : BitVec 4) : b &&& 0xF#4 = b := BitVec.and_allOnes (x := b)
  unfold formatRR
  rw [hmask, BitVec.and_append, BitVec.and_append, BitVec.and_append, hkeep, hkeep, hkeep, BitVec.and_zero]
  rfl

theorem formatRR_and_FFF0 (c : BitVec 4) (x y : Reg) (n : BitVec 4) :
    formatRR c x y n &&& 0xFFF0#16 = formatRR c x y 0 := by
  have hmask : (0xFFF0#16 : BitVec (4 + 4 + 4 + 4)) = 0xF#4 ++ 0xF#4 ++ 0xF#4 ++ 0x0#4 := rfl
  have hkeep (b : BitVec 4) : b &&& 0xF#4 = b := BitVec.and_allOnes (x := b)
  unfold formatRR
  rw [hmask, BitVec.and_append, BitVec.and_append, BitVec.and_append, hkeep, hkeep, hkeep, BitVec.and_zero]
  rfl

/-- Settles O55: where the encoder does not give w back, it gives w with the unread nibble cleared. -/
theorem encodeOfTheDecodedWordIsTheWord : Obligations.EncodeOfTheDecodedWordIsTheWord := by
  intro p6 w i h
  have hdec := decodeWord_decoded p6 w
  rw [h] at hdec
  cases hdec with
  | encoded hwf hw => exact ⟨hwf, .inl hw⟩
  | shr hw =>
    subst hw
    exact ⟨rfl, .inr (.inl ⟨.inl (formatRR_and_mask ..), (formatRR_and_FF0F ..).symm⟩)⟩
  | shl hw =>
    subst hw
    exact ⟨rfl, .inr (.inl ⟨.inr (formatRR_and_mask ..), (formatRR_and_FF0F ..).symm⟩)⟩
  | seReg hp6 hw =>
    subst hw
    exact ⟨rfl, .inr (.inr ⟨hp6, .inl (formatRRN_and_mask ..), (formatRR_and_FFF0 ..).symm⟩)⟩
  | sneReg hp6 hw =>
    subst hw
    exact ⟨rfl, .inr (.inr ⟨hp6, .inr (formatRRN_and_mask ..), (formatRR_and_FFF0 ..).symm⟩)⟩

/-! ## The rows of the opcode map (R63) -/

theorem encode_selectsRow : ∀ i : Instr, Laws.EncodeSelectsRow.Statement i
  | .cls => Laws.EncodeSelectsRow.cls
  | .ret => Laws.EncodeSelectsRow.ret
  | .jp nnn => Laws.EncodeSelectsRow.jp nnn
  | .call nnn => Laws.EncodeSelectsRow.call nnn
  | .seByte x kk => Laws.EncodeSelectsRow.seByte x kk
  | .sneByte x kk => Laws.EncodeSelectsRow.sneByte x kk
  | .seReg x y => Laws.EncodeSelectsRow.seReg x y
  | .ldByte x kk => Laws.EncodeSelectsRow.ldByte x kk
  | .addByte x kk => Laws.EncodeSelectsRow.addByte x kk
  | .ldReg x y => Laws.EncodeSelectsRow.ldReg x y
  | .orReg x y => Laws.EncodeSelectsRow.orReg x y
  | .andReg x y => Laws.EncodeSelectsRow.andReg x y
  | .xorReg x y => Laws.EncodeSelectsRow.xorReg x y
  | .addReg x y => Laws.EncodeSelectsRow.addReg x y
  | .sub x y => Laws.EncodeSelectsRow.sub x y
  | .shr x => Laws.EncodeSelectsRow.shr x
  | .subn x y => Laws.EncodeSelectsRow.subn x y
  | .shl x => Laws.EncodeSelectsRow.shl x
  | .sneReg x y => Laws.EncodeSelectsRow.sneReg x y
  | .ldI nnn => Laws.EncodeSelectsRow.ldI nnn
  | .jpV0 nnn => Laws.EncodeSelectsRow.jpV0 nnn
  | .rnd x kk => Laws.EncodeSelectsRow.rnd x kk
  | .drw x y n => Laws.EncodeSelectsRow.drw x y n
  | .skp x => Laws.EncodeSelectsRow.skp x
  | .sknp x => Laws.EncodeSelectsRow.sknp x
  | .ldVxDT x => Laws.EncodeSelectsRow.ldVxDT x
  | .ldVxK x => Laws.EncodeSelectsRow.ldVxK x
  | .ldDT x => Laws.EncodeSelectsRow.ldDT x
  | .ldST x => Laws.EncodeSelectsRow.ldST x
  | .addI x => Laws.EncodeSelectsRow.addI x
  | .ldF x => Laws.EncodeSelectsRow.ldF x
  | .ldB x => Laws.EncodeSelectsRow.ldB x
  | .storeRegs x => Laws.EncodeSelectsRow.storeRegs x
  | .loadRegs x => Laws.EncodeSelectsRow.loadRegs x

theorem OpRow.selects_iff : row.selects w = true ↔ w &&& row.mask = row.pat := beq_iff_eq

/-- No word selects two rows: in some bit that both masks keep, their patterns differ. -/
theorem opcodeRows_pairwise_disjoint (p6 : DecodeStrict) :
    (opcodeRows p6).Pairwise fun r s => r.pat &&& s.mask ≠ s.pat &&& r.mask := by
  cases p6 <;> decide

theorem pat_and_mask_comm_of_selects {r s : OpRow} (hr : r.selects w = true) (hs : s.selects w = true) :
    r.pat &&& s.mask = s.pat &&& r.mask := by
  rw [← OpRow.selects_iff.1 hr, ← OpRow.selects_iff.1 hs, BitVec.and_assoc, BitVec.and_assoc,
    BitVec.and_comm r.mask s.mask]

/-- A row that w selects is the only one. -/
theorem filter_selects_eq_singleton (hrow : row ∈ opcodeRows p6) (hsel : row.selects w = true) :
    (opcodeRows p6).filter (fun r => r.selects w) = [row] := by
  have hpair := (opcodeRows_pairwise_disjoint p6).filter (fun r => r.selects w)
  have hmem : row ∈ (opcodeRows p6).filter (fun r => r.selects w) := List.mem_filter.2 ⟨hrow, hsel⟩
  have hall : ∀ r ∈ (opcodeRows p6).filter (fun r => r.selects w), r.selects w = true :=
    fun r hr => (List.mem_filter.1 hr).2
  generalize (opcodeRows p6).filter (fun r => r.selects w) = rows at *
  match rows with
  | [r] => rw [List.mem_singleton.1 hmem]
  | r :: s :: rest =>
    exact absurd (pat_and_mask_comm_of_selects (hall r (by simp)) (hall s (by simp)))
      (List.rel_of_pairwise_cons hpair (by simp))

/-- A word that decodes selects a row with the instruction's mnemonic, whatever the bits that are not read. -/
theorem Decoded.selectsRow (h : Decoded p6 w (.ok i)) :
    ∃ row ∈ opcodeRows p6, row.mnemonic = i.mnemonic ∧ row.selects w = true := by
  cases h with
  | encoded _ hw =>
    subst hw
    exact encode_selectsRow i p6
  | shr hw =>
    subst hw
    exact ⟨⟨0xF00F, 0x8006, "SHR_Vx"⟩, by cases p6 <;> decide, rfl, OpRow.selects_iff.2 (formatRR_and_mask ..)⟩
  | shl hw =>
    subst hw
    exact ⟨⟨0xF00F, 0x800E, "SHL_Vx"⟩, by cases p6 <;> decide, rfl, OpRow.selects_iff.2 (formatRR_and_mask ..)⟩
  | seReg hp6 hw =>
    subst hp6 hw
    exact ⟨⟨0xF000, 0x5000, "SE_Vx__Vy"⟩, by decide, rfl, OpRow.selects_iff.2 (formatRRN_and_mask ..)⟩
  | sneReg hp6 hw =>
    subst hp6 hw
    exact ⟨⟨0xF000, 0x9000, "SNE_Vx__Vy"⟩, by decide, rfl, OpRow.selects_iff.2 (formatRRN_and_mask ..)⟩

/-! What the rows of one major opcode look like, read off the table. -/

theorem opcodeRows_fieldC_mask : ∀ row ∈ opcodeRows p6, fieldC row.mask = 0xF#4 := by cases p6 <;> decide

theorem opcodeRows_row0 : ∀ row ∈ opcodeRows p6, fieldC row.pat = 0x0#4 →
    row.mask = BitVec.allOnes 16 ∧ (row.pat = 0x00E0#16 ∨ row.pat = 0x00EE#16) := by cases p6 <;> decide

theorem opcodeRows_regPair : ∀ row ∈ opcodeRows .strict, fieldC row.pat = 0x5#4 ∨ fieldC row.pat = 0x9#4 →
    fieldN row.mask = 0xF#4 ∧ fieldN row.pat = 0x0#4 := by decide

theorem opcodeRows_row8 : ∀ row ∈ opcodeRows p6, fieldC row.pat = 0x8#4 →
    fieldN row.mask = 0xF#4 ∧ fieldN row.pat ∉ unusedNibbles8 := by cases p6 <;> decide

theorem opcodeRows_rowE : ∀ row ∈ opcodeRows p6, fieldC row.pat = 0xE#4 →
    fieldKK row.mask = 0xFF#8 ∧ fieldKK row.pat ∈ functionsE := by cases p6 <;> decide

theorem opcodeRows_rowF : ∀ row ∈ opcodeRows p6, fieldC row.pat = 0xF#4 →
    fieldKK row.mask = 0xFF#8 ∧ fieldKK row.pat ∈ functionsF := by cases p6 <;> decide

/-- A field that the mask of a selected row keeps whole is the pattern's. -/
theorem extractLsb'_eq_of_selects {start len : Nat} (hsel : row.selects w = true)
    (hmask : row.mask.extractLsb' start len = BitVec.allOnes len) :
    w.extractLsb' start len = row.pat.extractLsb' start len := by
  rw [← OpRow.selects_iff.1 hsel, BitVec.extractLsb'_and, hmask, BitVec.and_allOnes]

theorem OutsideMap.not_selects (h : OutsideMap p6 w) (hrow : row ∈ opcodeRows p6) : ¬ row.selects w = true := by
  intro hsel
  have hC : fieldC w = fieldC row.pat := extractLsb'_eq_of_selects hsel (opcodeRows_fieldC_mask row hrow)
  cases h with
  | row0 hc hcls hret =>
    obtain ⟨hmask, hpat⟩ := opcodeRows_row0 row hrow (hC.symm.trans hc)
    have hw : w = row.pat := by rw [← OpRow.selects_iff.1 hsel, hmask, BitVec.and_allOnes]
    rw [← hw] at hpat
    exact hpat.elim hcls hret
  | regPair hp6 hc hn =>
    subst hp6
    rw [hC] at hc
    obtain ⟨hmask, hpat⟩ := opcodeRows_regPair row hrow hc
    exact hn ((extractLsb'_eq_of_selects hsel hmask).trans hpat)
  | row8 hc hn =>
    obtain ⟨hmask, hpat⟩ := opcodeRows_row8 row hrow (hC.symm.trans hc)
    have hN : fieldN w = fieldN row.pat := extractLsb'_eq_of_selects hsel hmask
    exact hpat (hN ▸ hn)
  | rowE hc hkk =>
    obtain ⟨hmask, hpat⟩ := opcodeRows_rowE row hrow (hC.symm.trans hc)
    have hKK : fieldKK w = fieldKK row.pat := extractLsb'_eq_of_selects hsel hmask
    exact hkk (hKK ▸ hpat)
  | rowF hc hkk =>
    obtain ⟨hmask, hpat⟩ := opcodeRows_rowF row hrow (hC.symm.trans hc)
    have hKK : fieldKK w = fieldKK row.pat := extractLsb'_eq_of_selects hsel hmask
    exact hkk (hKK ▸ hpat)

/-- Settles O54: a decoded word selects its row and, the rows being disjoint, no other; a word outside the map differs
from every row in a field that the row's mask keeps. -/
theorem decoderSelectsTheRowOfTheOpcodeMap : Obligations.DecoderSelectsTheRowOfTheOpcodeMap := by
  intro p6 w
  have hdec := decodeWord_decoded p6 w
  constructor
  · intro i hi
    rw [hi] at hdec
    obtain ⟨row, hrow, hname, hsel⟩ := hdec.selectsRow
    exact ⟨row, filter_selects_eq_singleton hrow hsel, hname⟩
  · intro e he
    rw [he] at hdec
    cases hdec with
    | unknown h => exact ⟨rfl, List.filter_eq_nil_iff.2 fun row hrow => h.not_selects hrow⟩

/-! ## The unknown words (R65) -/

/-- A word outside the map cannot decode, because a word that decodes selects a row. -/
theorem decodeWord_error_iff : (∃ e, decodeWord p6 w = .error e) ↔ OutsideMap p6 w := by
  have hdec := decodeWord_decoded p6 w
  constructor
  · rintro ⟨e, he⟩
    rw [he] at hdec
    cases hdec with
    | unknown h => exact h
  · intro h
    cases hw : decodeWord p6 w with
    | error e => exact ⟨e, rfl⟩
    | ok i =>
      rw [hw] at hdec
      obtain ⟨row, hrow, -, hsel⟩ := hdec.selectsRow
      exact absurd hsel (h.not_selects hrow)

theorem toNat_fieldC (w : Word) : (fieldC w).toNat = w.toNat / 4096 := by
  have hw := w.isLt
  rw [fieldC, BitVec.extractLsb'_toNat, Nat.shiftRight_eq_div_pow]
  omega

theorem toNat_fieldN (w : Word) : (fieldN w).toNat = w.toNat % 16 := BitVec.extractLsb'_toNat ..

theorem toNat_fieldKK (w : Word) : (fieldKK w).toNat = w.toNat % 256 := BitVec.extractLsb'_toNat ..

theorem outsideMap_iff : OutsideMap p6 w ↔
    (fieldC w = 0x0#4 ∧ w ≠ 0x00E0#16 ∧ w ≠ 0x00EE#16) ∨
    (p6 = .strict ∧ (fieldC w = 0x5#4 ∨ fieldC w = 0x9#4) ∧ fieldN w ≠ 0x0#4) ∨
    (fieldC w = 0x8#4 ∧ fieldN w ∈ unusedNibbles8) ∨
    (fieldC w = 0xE#4 ∧ fieldKK w ∉ functionsE) ∨ (fieldC w = 0xF#4 ∧ fieldKK w ∉ functionsF) := by
  constructor
  · rintro (⟨hc, hcls, hret⟩ | ⟨hp6, hc, hn⟩ | ⟨hc, hn⟩ | ⟨hc, hkk⟩ | ⟨hc, hkk⟩)
    · exact .inl ⟨hc, hcls, hret⟩
    · exact .inr (.inl ⟨hp6, hc, hn⟩)
    · exact .inr (.inr (.inl ⟨hc, hn⟩))
    · exact .inr (.inr (.inr (.inl ⟨hc, hkk⟩)))
    · exact .inr (.inr (.inr (.inr ⟨hc, hkk⟩)))
  · rintro (⟨hc, hcls, hret⟩ | ⟨hp6, hc, hn⟩ | ⟨hc, hn⟩ | ⟨hc, hkk⟩ | ⟨hc, hkk⟩)
    · exact .row0 hc hcls hret
    · exact .regPair hp6 hc hn
    · exact .row8 hc hn
    · exact .rowE hc hkk
    · exact .rowF hc hkk

/-- Settles O56: the table of R65 names the words outside the map by the values of their fields. -/
theorem unknownWordsAreThoseOfTheTable : Obligations.UnknownWordsAreThoseOfTheTable := by
  intro p6 w
  rw [decodeWord_error_iff, outsideMap_iff]
  simp [BitVec.toNat_eq, toNat_fieldC, toNat_fieldN, toNat_fieldKK, unusedNibbles8, functionsE, functionsF]

/-- Settles O57: the decoder, evaluated on each word. -/
theorem wordsOfTheSpecDecode : Obligations.WordsOfTheSpecDecode := by
  unfold Obligations.WordsOfTheSpecDecode
  decide

end Sys2Proof
end

section
/-! SUPPORT. The parts of the state an instruction leaves as they are (10_state.md section 1): one frame rule per state
operation, and from them the frame of every instruction. -/

namespace Sys2Proof.Machine

variable {ps qs : List Part} {i : Instr} {s t u : State}

/-! ## Frames -/

theorem Part.forall_iff {P : Part → Prop} :
    (∀ p, P p) ↔ P .cfg ∧ P .v ∧ P .i ∧ P .pc ∧ P .stack ∧ P .dt ∧ P .st ∧ P .mem ∧ P .grid ∧ P .changed ∧ P .keys ∧
      P .fault ∧ P .random := by
  refine ⟨fun h => by simp [h], fun h p => ?_⟩
  cases p <;> simp [h]

theorem Part.Kept.trans {p : Part} (hst : p.Kept s t) (htu : p.Kept t u) : p.Kept s u := by
  cases p with
  | v | mem => exact fun a => (htu a).trans (hst a)
  | stack | random => exact ⟨htu.1.trans hst.1, htu.2.trans hst.2⟩
  | cfg | i | pc | dt | st | grid | changed | keys | fault => exact Eq.trans htu hst

theorem KeptExcept.trans (hst : KeptExcept ps s t) (htu : KeptExcept ps t u) : KeptExcept ps s u :=
  fun p hp => (hst p hp).trans (htu p hp)

theorem KeptExcept.mono (h : KeptExcept ps s t) (hsub : ps ⊆ qs) : KeptExcept qs s t :=
  fun p hp => h p fun hmem => hp (hsub hmem)

/-! ## One frame rule per operation -/

theorem State.setV_kept (s : State) (x : Reg) (b : Byte) : KeptExcept [.v] s (s.setV x b) := by
  simp [KeptExcept, Part.forall_iff, Part.Kept]

theorem State.setVUpTo_kept (s : State) (x : Reg) (f : Nat → Byte) : KeptExcept [.v] s (s.setVUpTo x f) := by
  simp [KeptExcept, Part.forall_iff, Part.Kept]

theorem State.setI_kept (s : State) (w : Word) : KeptExcept [.i] s (s.setI w) := by
  simp [KeptExcept, Part.forall_iff, Part.Kept]

theorem State.setDT_kept (s : State) (b : Byte) : KeptExcept [.dt] s (s.setDT b) := by
  simp [KeptExcept, Part.forall_iff, Part.Kept]

theorem State.setST_kept (s : State) (b : Byte) : KeptExcept [.st] s (s.setST b) := by
  simp [KeptExcept, Part.forall_iff, Part.Kept]

theorem State.setPC_kept (s : State) (w : Word) : KeptExcept [.pc] s (s.setPC w) := by
  simp [KeptExcept, Part.forall_iff, Part.Kept]

theorem State.skipIf_kept (s : State) (c : Bool) : KeptExcept [.pc] s (s.skipIf c) := by
  simp [KeptExcept, Part.forall_iff, Part.Kept]

theorem State.push_kept (s : State) (h : s.sp.val < 16) (w : Word) : KeptExcept [.stack] s (s.push h w) := by
  simp [KeptExcept, Part.forall_iff, Part.Kept]

theorem State.popPC_kept (s : State) (h : 0 < s.sp.val) : KeptExcept [.pc, .stack] s (s.popPC h) := by
  simp [KeptExcept, Part.forall_iff, Part.Kept]

theorem State.writeBytes_kept (s : State) (base : Nat) (bs : List Byte) :
    KeptExcept [.mem] s (s.writeBytes base bs) := by
  simp [KeptExcept, Part.forall_iff, Part.Kept]

theorem State.setGrid_kept (s : State) (g : Grid) : KeptExcept [.grid, .changed] s (s.setGrid g) := by
  simp [KeptExcept, Part.forall_iff, Part.Kept]

theorem State.rndTaken_kept (s : State) : KeptExcept [.random] s s.rndTaken := by
  simp [KeptExcept, Part.forall_iff, Part.Kept]

theorem State.writeResultThenFlag_kept (s : State) (x : Reg) (res : Byte) (flg : Bool) :
    KeptExcept [.v] s (s.writeResultThenFlag x res flg) :=
  (s.setV_kept x res).trans (State.setV_kept _ vf (flagByte flg))

theorem State.writeFlagThenResult_kept (s : State) (x : Reg) (res : Byte) (flg : Bool) :
    KeptExcept [.v] s (s.writeFlagThenResult x res flg) :=
  (s.setV_kept vf (flagByte flg)).trans (State.setV_kept _ x res)

/-- Whatever P2 says of x = 0xF, an aliased write that is not refused writes registers only. -/
theorem State.writeAliased_kept {x : Reg} {res : Byte} {flg : Bool} (h : s.writeAliased x res flg = .next t) :
    KeptExcept [.v] s t := by
  rcases s.writeAliased_cases h with ⟨-, h⟩ | ⟨-, -, h⟩ | ⟨-, -, h⟩ | ⟨-, -, h⟩
  · cases h; exact s.writeResultThenFlag_kept x res flg
  · cases h; exact s.writeFlagThenResult_kept x res flg
  · cases h; exact s.writeResultThenFlag_kept x res flg
  · cases h

/-! ## The frame of an instruction -/

theorem State.raise_not_running (s : State) (f : Fault) (i : Instr) : ¬ (s.raise f i).Running := by
  simp [State.Running]

/-- Where no fault was latched, the checks passed and the rest of the instruction happened. -/
theorem State.checked_eq_rest {check : Option Fault} {rest : State} (h : s.checked check i rest = .next t)
    (ht : t.Running) : t = rest := by
  rcases s.checked_cases h with ⟨f, -, h⟩ | ⟨-, h⟩
  · cases h; exact absurd ht (s.raise_not_running f i)
  · cases h; rfl

/-- Settles O13: an instruction that does not fault is made of the operations its row of the table allows. -/
theorem onlyTheNamedPartsChange : Obligations.OnlyTheNamedPartsChange := by
  intro i s t _ h ht
  cases i
  case cls => cases h; exact s.setGrid_kept _
  case jp | jpV0 => cases h; exact s.setPC_kept _
  case seByte | sneByte | seReg | sneReg => cases h; exact s.skipIf_kept _
  case ldByte | addByte | ldReg | orReg | andReg | xorReg | ldVxDT => cases h; exact s.setV_kept _ _
  case rnd =>
    cases h
    exact (s.rndTaken_kept.mono (by simp [mayWrite])).trans ((State.setV_kept _ _ _).mono (by simp [mayWrite]))
  case ldI | addI => cases h; exact s.setI_kept _
  case ldDT => cases h; exact s.setDT_kept _
  case ldST => cases h; exact s.setST_kept _
  case addReg => cases h; exact s.writeResultThenFlag_kept _ _ _
  case sub | subn | shr | shl => exact State.writeAliased_kept h
  case drw =>
    cases State.checked_eq_rest h ht
    exact ((s.setGrid_kept _).mono (by simp [mayWrite])).trans ((State.setV_kept _ _ _).mono (by simp [mayWrite]))
  case ldB | storeRegs => cases State.checked_eq_rest h ht; exact s.writeBytes_kept _ _
  case loadRegs => cases State.checked_eq_rest h ht; exact s.setVUpTo_kept _ _
  case ret =>
    simp only [exec, execRet] at h
    split at h
    · cases h; exact s.popPC_kept _
    · cases h; exact absurd ht (s.raise_not_running _ _)
  case call =>
    simp only [exec, execCall] at h
    split at h
    · cases h
      exact ((s.push_kept _ _).mono (by simp [mayWrite])).trans ((State.setPC_kept _ _).mono (by simp [mayWrite]))
    · cases h; exact absurd ht (s.raise_not_running _ _)
  case skp | sknp =>
    simp only [exec, execSkp, execSknp] at h
    split at h
    · cases h; exact absurd ht (s.raise_not_running _ _)
    · cases h; exact s.skipIf_kept _
  case ldVxK =>
    simp only [exec, execLdVxK] at h
    split at h
    · cases h; exact (s.setV_kept _ _).mono (by simp [mayWrite])
    · cases h; exact (s.setPC_kept _).mono (by simp [mayWrite])
  case ldF =>
    simp only [exec, execLdF] at h
    split at h
    · cases h
    · cases h; exact s.setI_kept _

end Sys2Proof.Machine
end

section
/-! SUPPORT. The instruction cycle (40_cycle.md): the equation of a step for each state it can start in, what a step that
latches a fault leaves, what the host is told, and what a step does with the host's random byte. -/

namespace Sys2Proof.Machine

variable {i : Instr} {s t : State} {r : FaultRecord}

/-! ## One equation per case of a step (R80, R82 to R84, R87) -/

theorem step_of_latched (hf : s.fault = some r) : step s = .fault r.cause := by
  simp [step, hf]

theorem checkRange_fetchAddr_eq_none (hlt : s.fetchAddr < 0xFFF) : checkRange s.fetchAddr 2 = none :=
  checkRange_eq_none.2 (.inr (by unfold memSize; omega))

theorem step_of_unknown {e : DecodeError} (hrun : s.Running) (hlt : s.fetchAddr < 0xFFF)
    (hdec : decodeWord s.cfg.decodeStrict s.fetchWord = .error e) : step s = .next s.advance := by
  simp only [step, hrun, checkRange_fetchAddr_eq_none hlt, hdec]

theorem step_of_decoded (hrun : s.Running) (hlt : s.fetchAddr < 0xFFF)
    (hdec : decodeWord s.cfg.decodeStrict s.fetchWord = .ok i) : step s = exec i s.advance := by
  simp only [step, hrun, checkRange_fetchAddr_eq_none hlt, hdec]

/-- Settles O1: the fetch address is pc mod 4096, the word is big-endian, and the advance adds 2 to pc. -/
theorem stepRunsTheDecodedInstruction : Obligations.StepRunsTheDecodedInstruction :=
  fun _ _ hrun hlt hdec => step_of_decoded hrun hlt hdec

/-- The host is told Ok of a step that left the block running. -/
theorem State.stepResult_of_running (hrun : s.Running) : s.stepResult = .ok := by
  simp [State.stepResult, hrun]

/-- Settles O2: the advance sets no latch, with a random byte offered or without. -/
theorem unknownEncodingIsANoOp : Obligations.UnknownEncodingIsANoOp := by
  intro s e hrun hlt hdec
  refine ⟨step_of_unknown hrun hlt hdec, fun rnd => ?_⟩
  have hoffered : step (s.offerRnd rnd) = .next (s.offerRnd rnd).advance := step_of_unknown hrun hlt hdec
  simp only [stepWith, hoffered]
  exact State.stepResult_of_running hrun

/-- Settles O4: a latched step answers the cause at once, so a run stops at its first step. -/
theorem latchedStepExecutesNothing : Obligations.LatchedStepExecutesNothing := by
  intro s r hf
  constructor
  · intro rnd
    have hoffered : step (s.offerRnd rnd) = .fault r.cause := step_of_latched hf
    simp only [stepWith, hoffered]
  · intro n
    have hstep : Sys2Proof.core.step s = .fault r.cause := step_of_latched hf
    simp only [Host.Core.run, hstep]

/-! ## What the host is told (R86 to R88, 60_exceptions.md R302, R303) -/

/-- Settles O8: of what a step transaction can do, each case names the latch it leaves. -/
theorem stepResultNamesTheLatchedCause : Obligations.StepResultNamesTheLatchedCause := by
  intro rnd s
  rcases stepWith_cases rnd s with ⟨r, hf, h⟩ | ⟨hrun, t, -, h⟩ | ⟨hrun, why, -, h⟩
  · rw [h]
    exact ⟨r, hf, rfl, fun r0 hr0 => ⟨Option.some.inj (hf.symm.trans hr0), rfl⟩⟩
  · rw [h]
    cases ht : t.fault with
    | none =>
      rw [State.stepResult_of_running ht]
      exact ⟨hrun, ht⟩
    | some r =>
      have hresult : t.stepResult = .fault r.cause := by simp [State.stepResult, ht]
      rw [hresult]
      exact ⟨r, ht, rfl, fun r0 hr0 => by simp [hrun] at hr0⟩
  · rw [h]
    exact ⟨hrun, rfl⟩

/-! ## A step that latches a fault (R86, 60_exceptions.md R300, R302) -/

/-- Back to the instruction in progress is where the step started. -/
@[simp] theorem State.rewind_advance (s : State) : s.advance.rewind = s := by
  simp [State.rewind, State.advance, State.setPC]

/-- Only a raised fault sets the latch. -/
theorem Commits.eq_raise_of_fault (h : Commits i s t) (hrun : s.Running) (ht : t.fault = some r) :
    ∃ f, t = s.raise f i := by
  cases h with
  | raise f => exact ⟨f, rfl⟩
  | resultThenFlag => simp [State.writeResultThenFlag, hrun] at ht
  | flagThenResult => simp [State.writeFlagThenResult, hrun] at ht
  | jump | skip | call | ret | register | random | registersUpTo | index | delayTimer | soundTimer | bytes | clear
  | draw => simp [hrun] at ht

/-- The encoder gives back the word of an instruction that latched a fault: those that leave bits of their word unread
(30_encoding.md R61, R64) raise none. -/
theorem encode_of_latched {p6 : DecodeStrict} {w : Word} (hdec : decodeWord p6 w = .ok i) (h : exec i s = .next t)
    (hrun : s.Running) (ht : t.fault = some r) : encode i = w := by
  have hdecoded := decodeWord_decoded p6 w
  rw [hdec] at hdecoded
  cases hdecoded with
  | encoded _ hw => exact hw
  | shr | shl =>
    have hkept : t.fault = s.fault := State.writeAliased_kept h .fault (by simp)
    simp [hkept, hrun] at ht
  | seReg | sneReg => cases h; simp [hrun] at ht

/-- A step that latches a fault does so in the state it started from, with the word it fetched, if it fetched one. -/
theorem step_latches (hrun : s.Running) (h : step s = .next t) (ht : t.fault = some r) :
    ∃ f op, t = s.latch f op ∧
      ((s.fetchAddr = 0xFFF ∧ op = none) ∨ (s.fetchAddr < 0xFFF ∧ op = some s.fetchWord)) := by
  rcases step_cases h with ⟨f, -, h⟩ | ⟨-, htop, h⟩ | ⟨-, -, -, h⟩ | ⟨-, hlt, i, hdec, h⟩
  · cases h
  · cases h; exact ⟨_, _, rfl, .inl ⟨htop, rfl⟩⟩
  · cases h; simp [hrun] at ht
  · have hword : encode i = s.fetchWord := encode_of_latched hdec h.symm hrun ht
    obtain ⟨f, rfl⟩ := (exec_commits h.symm).eq_raise_of_fault hrun ht
    exact ⟨f, some (encode i), by rw [State.raise, State.rewind_advance], .inr ⟨hlt, by rw [hword]⟩⟩

/-- Settles O5: such a step only sets the latch, and the record is the one it set. -/
theorem faultingStepCommitsNothing : Obligations.FaultingStepCommitsNothing := by
  intro s t r hrun h ht
  obtain ⟨f, op, rfl, hop⟩ := step_latches hrun h ht
  cases ht
  exact ⟨rfl, rfl, hop⟩

/-! ## The random byte of a step (R89, 60_exceptions.md R312) -/

/-- A step that does not fetch Cxkk carries the offered byte through untouched. -/
theorem step_offerRnd (h : ∀ x kk, ¬ s.Fetches (.rnd x kk)) (b : Byte) :
    step (s.offerRnd b) = offerRndNext b (step s) := by
  rcases step_cases (rfl : step s = step s) with ⟨r, hf, hs⟩ | ⟨hrun, htop, hs⟩ | ⟨hrun, hlt, ⟨e, hdec⟩, hs⟩ |
    ⟨hrun, hlt, i, hdec, hs⟩
  · rw [hs]; exact step_of_latched hf
  · rw [hs]; exact fetchAtTheTopLatchesMemoryOutOfRange (s.offerRnd b) hrun htop
  · rw [hs]; exact step_of_unknown hrun hlt hdec
  · have hne : ∀ x kk, i ≠ .rnd x kk := by
      rintro x kk rfl
      exact h x kk ⟨hrun, hlt, hdec⟩
    rw [hs, ← exec_offerRnd hne]
    exact step_of_decoded hrun hlt hdec

/-- Settles O59: the byte a step carried through untouched is dropped with the step's input. -/
theorem onlyRndReadsTheStepsRandomByte : Obligations.OnlyRndReadsTheStepsRandomByte := by
  intro s a b h
  rw [stepWith, stepWith, step_offerRnd h, step_offerRnd h]
  cases step s with
  | next | fault | refused => rfl

end Sys2Proof.Machine
end

section
/-! SUPPORT. The display family (41_display.md): what compositing does to a canvas, composed from bits to rows to a
sprite, and the draws and the clear that use it. -/

namespace Sys2Proof.Machine

/-! ## Compositing a set of pixels (R101, R103) -/

/-- `cv'` is `cv` with the pixels of `cover` composited onto it: each is flipped, and one that was lit is a collision. -/
structure Draws (cover : Fin 32 → Fin 64 → Bool) (cv cv' : Canvas) : Prop where
  pixel : ∀ r c, cv'.grid.pixel r c = (cv.grid.pixel r c ^^ cover r c)
  collision : cv'.collision = true ↔ cv.collision = true ∨ ∃ r c, cover r c = true ∧ cv.grid.pixel r c = true

theorem Draws.nothing (cv : Canvas) : Draws (fun _ _ => false) cv cv := ⟨by simp, by simp⟩

/-- Compositing two sets with no common pixel, one after the other, composites their union: the second finds its pixels
as they were before the first. -/
theorem Draws.trans {A B : Fin 32 → Fin 64 → Bool} {cv cv' cv'' : Canvas} (hA : Draws A cv cv') (hB : Draws B cv' cv'')
    (hdisj : ∀ r c, A r c = true → B r c = false) : Draws (fun r c => A r c || B r c) cv cv'' where
  pixel r c := by
    rw [hB.pixel, hA.pixel]
    cases hAc : A r c with
    | true => simp [hdisj r c hAc]
    | false => simp
  collision := by
    have hkeep : ∀ r c, B r c = true → cv'.grid.pixel r c = cv.grid.pixel r c := by
      intro r c hBc
      cases hAc : A r c with
      | true => simp [hdisj r c hAc] at hBc
      | false => simp [hA.pixel, hAc]
    have hsecond : (∃ r c, B r c = true ∧ cv'.grid.pixel r c = true) ↔
        ∃ r c, B r c = true ∧ cv.grid.pixel r c = true :=
      exists_congr fun r => exists_congr fun c => and_congr_right fun hBc => by rw [hkeep r c hBc]
    simp only [hB.collision, hA.collision, hsecond, or_assoc, Bool.or_eq_true, or_and_right, exists_or]

/-- A loop whose rounds composite pairwise disjoint sets composites their union. -/
theorem Draws.foldl_range {n : Nat} {cover : Nat → Fin 32 → Fin 64 → Bool} {round : Canvas → Nat → Canvas} (cv : Canvas)
    (hround : ∀ k cv, Draws (cover k) cv (round cv k))
    (hdisj : ∀ j k r c, j < k → k < n → cover j r c = true → cover k r c = false) :
    Draws (fun r c => (List.range n).any fun k => cover k r c) cv ((List.range n).foldl round cv) := by
  induction n with
  | zero => exact .nothing cv
  | succ n ih =>
    have hlast := (ih fun j k r c hjk hk => hdisj j k r c hjk (by omega)).trans (hround n _) (by
      intro r c hearlier
      obtain ⟨j, hj, hcover⟩ := List.any_eq_true.1 hearlier
      exact hdisj j n r c (List.mem_range.1 hj) n.lt_succ_self hcover)
    simpa [List.range_succ] using hlast

/-! ## The compositor's loops (R101, R102) -/

/-- The bit at column offset `col` of the byte at row offset `row` is a 1 that lands on pixel (r, c). -/
def bitCovers (x y b : Byte) (row col : Nat) (r : Fin 32) (c : Fin 64) : Bool :=
  decide ((y.toNat + row) % 32 = r.val) && decide ((x.toNat + col) % 64 = c.val) && b.getLsbD (7 - col)

/-- The byte at row offset `row` has a 1 that lands on pixel (r, c). -/
def rowCovers (x y b : Byte) (row : Nat) (r : Fin 32) (c : Fin 64) : Bool :=
  (List.range 8).any fun col => bitCovers x y b row col r c

theorem spriteCovers_eq_any_rowCovers (x y : Byte) (bytes : List Byte) :
    spriteCovers x y bytes = fun r c =>
      (List.range bytes.length).any fun row => rowCovers x y (bytes.getD row 0) row r c := rfl

theorem bitCovers_eq (x y b : Byte) (row col : Nat) (r : Fin 32) (c : Fin 64) :
    bitCovers x y b row col r c = (decide (r = targetRow y row ∧ c = targetCol x col) && spriteBit b col) := by
  simp only [bitCovers, targetRow, targetCol, spriteBit, Fin.ext_iff, Bool.decide_and, @eq_comm Nat r.val,
    @eq_comm Nat c.val]

theorem bitCovers_target {x y b : Byte} {row col : Nat} {r : Fin 32} {c : Fin 64}
    (h : bitCovers x y b row col r c = true) : r = targetRow y row ∧ c = targetCol x col := by
  rw [bitCovers_eq, Bool.and_eq_true, decide_eq_true_eq] at h
  exact h.1

theorem rowCovers_targetRow {x y b : Byte} {row : Nat} {r : Fin 32} {c : Fin 64} (h : rowCovers x y b row r c = true) :
    r = targetRow y row := by
  obtain ⟨col, -, hbit⟩ := List.any_eq_true.1 h
  exact (bitCovers_target hbit).1

theorem targetCol_ne {x : Byte} {j k : Nat} (hjk : j < k) (hk : k < 64) : targetCol x j ≠ targetCol x k := by
  simp only [targetCol, ne_eq, Fin.mk.injEq]; omega

theorem targetRow_ne {y : Byte} {j k : Nat} (hjk : j < k) (hk : k < 32) : targetRow y j ≠ targetRow y k := by
  simp only [targetRow, ne_eq, Fin.mk.injEq]; omega

theorem drawBit_draws (x y b : Byte) (row col : Nat) (cv : Canvas) :
    Draws (bitCovers x y b row col) cv (drawBit x y b row cv col) := by
  cases hbit : spriteBit b col with
  | false =>
    have hnone : bitCovers x y b row col = fun _ _ => false := by
      funext r c; rw [bitCovers_eq, hbit, Bool.and_false]
    simpa [drawBit, hbit, hnone] using Draws.nothing cv
  | true =>
    constructor
    · intro r c
      by_cases h : r = targetRow y row ∧ c = targetCol x col
      · simp [drawBit, hbit, Grid.pixel_flip, bitCovers_eq, h]
      · simp [drawBit, hbit, Grid.pixel_flip, bitCovers_eq, h]
    · simp [drawBit, hbit, bitCovers_eq, and_assoc]

/-- No two bits of a row land on one column. -/
theorem drawRow_draws (x y b : Byte) (row : Nat) (cv : Canvas) :
    Draws (rowCovers x y b row) cv (drawRow x y b row cv) := by
  refine Draws.foldl_range cv (fun col => drawBit_draws x y b row col) fun j k r c hjk hk hj => ?_
  obtain ⟨-, hcj⟩ := bitCovers_target hj
  refine Bool.eq_false_iff.2 fun hcover => ?_
  obtain ⟨-, hck⟩ := bitCovers_target hcover
  exact targetCol_ne hjk (by omega) (hcj.symm.trans hck)

theorem drawRows_eq_foldl (x y : Byte) (row : Nat) (bytes : List Byte) (cv : Canvas) :
    drawRows x y row bytes cv =
      (List.range bytes.length).foldl (fun cv k => drawRow x y (bytes.getD k 0) (row + k) cv) cv := by
  induction bytes generalizing row cv with
  | nil => rfl
  | cons b bs ih =>
    rw [List.length_cons, List.range_succ_eq_map, List.foldl_cons, List.foldl_map, drawRows, ih]
    simp [Nat.add_assoc, Nat.add_comm 1]

/-- No two rows of a sprite of at most 32 bytes land on one grid row. -/
theorem drawSprite_draws (g : Grid) (x y : Byte) {bytes : List Byte} (hlen : bytes.length ≤ 32) :
    Draws (spriteCovers x y bytes) ⟨g, false⟩ (drawSprite g x y bytes) := by
  rw [drawSprite, drawRows_eq_foldl, spriteCovers_eq_any_rowCovers]
  refine Draws.foldl_range _ (fun k cv => ?_) fun j k r c hjk hk hj => ?_
  · rw [Nat.zero_add]
    exact drawRow_draws x y (bytes.getD k 0) k cv
  · exact Bool.eq_false_iff.2 fun hcover => targetRow_ne hjk (by omega)
      ((rowCovers_targetRow hj).symm.trans (rowCovers_targetRow hcover))

/-- Settles O19: the loops composite the rows of the sprite, which are disjoint. -/
theorem compositorFlipsExactlyTheCoveredPixels : Obligations.CompositorFlipsExactlyTheCoveredPixels := by
  intro g x y bytes hlen
  have hdraw := drawSprite_draws g x y (hlen.trans (by decide))
  exact ⟨hdraw.pixel, by simpa using hdraw.collision⟩

/-! ## DRW (R104, R105) -/

theorem flagByte_eq_one_iff {f : Bool} : flagByte f = 1 ↔ f = true := by cases f <;> decide

theorem flagByte_eq_one_or_zero (f : Bool) : flagByte f = 1 ∨ flagByte f = 0 := by cases f <;> decide

variable {s t : State}

/-- DRW whose bytes lie in memory draws them and writes the collision to VF, both from the state before it. -/
theorem exec_drw {x y : Reg} {n : Nat} (hrange : n = 0 ∨ s.indexBase + n ≤ 4096) :
    exec (.drw x y n) s =
      .next ((s.setGrid (drawSprite s.fb (s.getV x) (s.getV y) (s.readBytes s.indexBase n)).grid).setV vf
        (flagByte (drawSprite s.fb (s.getV x) (s.getV y) (s.readBytes s.indexBase n)).collision)) := by
  simp only [exec, execDrw, State.checked, checkRange_eq_none.2 hrange]

/-- Settles O20: the sprite's closed form, read off the state that DRW answers. -/
theorem drwDrawsTheSpriteAtIndex : Obligations.DrwDrawsTheSpriteAtIndex := by
  intro x y n s hn hrange
  obtain ⟨hpixel, hcollision⟩ := compositorFlipsExactlyTheCoveredPixels s.fb (s.getV x) (s.getV y)
    (s.readBytes s.indexBase n) (by rw [State.readBytes_length]; omega)
  refine ⟨_, exec_drw hrange, ?pixels, ?flag, ?collides, ?changed, ?regs, ?frame⟩
  case pixels => simpa using hpixel
  case flag => rw [← vf, State.getV_setV_self]; exact flagByte_eq_one_or_zero _
  case collides => rw [← vf, State.getV_setV_self, flagByte_eq_one_iff]; exact hcollision
  case changed => rfl
  case regs =>
    intro r hr
    rw [State.getV_setV_ne _ (by simpa [vf] using hr), State.getV_setGrid]
  case frame =>
    exact ((s.setGrid_kept _).mono (by simp)).trans ((State.setV_kept _ _ _).mono (by simp))

theorem State.readBytes_congr (h : ∀ a, t.readByte a = s.readByte a) (base len : Nat) :
    t.readBytes base len = s.readBytes base len := by
  simp [State.readBytes, h]

/-- Settles O21: the second DRW reads the same coordinates and bytes, so it flips the same pixels again, and finds lit
those that were dark. -/
theorem drwTwiceRestoresTheGrid : Obligations.DrwTwiceRestoresTheGrid := by
  intro x y n s hn hrange hx hy
  obtain ⟨t, hexec, hpixel, -, -, -, hregs, hframe⟩ := drwDrawsTheSpriteAtIndex x y n s hn hrange
  have hbase : t.indexBase = s.indexBase := by
    have hi : t.i = s.i := hframe .i (by decide)
    rw [State.indexBase, hi, State.indexBase]
  have hbytes : t.readBytes s.indexBase n = s.readBytes s.indexBase n :=
    State.readBytes_congr (hframe .mem (by decide)) _ _
  have hgetX : t.getV x = s.getV x := hregs x (by simpa using hx)
  have hgetY : t.getV y = s.getV y := hregs y (by simpa using hy)
  obtain ⟨u, hexec', hpixel', -, hcollides', -, -, -⟩ :=
    drwDrawsTheSpriteAtIndex x y n t hn (by rwa [hbase])
  rw [hbase, hbytes, hgetX, hgetY] at hpixel' hcollides'
  refine ⟨t, u, hexec, hexec', Grid.ext fun r c => ?_, ?_⟩
  · rw [hpixel', hpixel, Bool.xor_assoc, Bool.xor_self, Bool.xor_false]
  · rw [hcollides']
    refine exists_congr fun r => exists_congr fun c => and_congr_right fun hcover => ?_
    rw [hpixel, hcover, Bool.xor_true, Bool.not_eq_true']

/-! ## CLS (R100) -/

/-- Settles O18: CLS takes the dark grid and touches nothing else. -/
theorem clsClearsTheScreen : Obligations.ClsClearsTheScreen := fun s =>
  ⟨s.setGrid Grid.clear, rfl, by simp, s.setGrid_changed _, s.setGrid_kept _⟩

end Sys2Proof.Machine
end

section
/-! SUPPORT. The control-flow family (42_flow.md): the jumps and skips, and the call stack that CALL pushes and RET pops.
`pc` is the advanced pc of 40_cycle.md R82 unless a whole step is meant. -/

namespace Sys2Proof.Machine

variable {p : Part} {ps : List Part} {s t : State}

/-! ## Frames and the program counter (30_encoding.md R61) -/

/-- A part that is kept after all need not be named. -/
theorem KeptExcept.of_cons (h : KeptExcept (p :: ps) s t) (hp : p.Kept s t) : KeptExcept ps s t := by
  intro q hq
  by_cases hqp : q = p
  · exact hqp ▸ hp
  · exact h q (by simp [hqp, hq])

@[simp] theorem toNat_zextAddr (nnn : Addr) : (zextAddr nnn).toNat = nnn.toNat :=
  BitVec.toNat_setWidth_of_le (by decide)

@[simp] theorem toNat_zextByte (b : Byte) : (zextByte b).toNat = b.toNat :=
  BitVec.toNat_setWidth_of_le (by decide)

theorem zextAddr_eq_of_toNat {nnn : Addr} {w : Word} (h : w.toNat = nnn.toNat) : zextAddr nnn = w :=
  BitVec.eq_of_toNat_eq (by rw [toNat_zextAddr, h])

/-! ## CALL and RET (R120, R122) -/

/-- CALL with room on the stack pushes and jumps. -/
theorem exec_call {nnn : Addr} (h : s.sp.val < 16) :
    exec (.call nnn) s = .next ((s.push h s.pc).setPC (zextAddr nnn)) :=
  dif_pos h

/-- RET with an entry in use pops it. -/
theorem exec_ret (h : 0 < s.sp.val) : exec .ret s = .next (s.popPC h) :=
  dif_pos h

theorem State.push_stack_getElem (h : s.sp.val < 16) (w : Word) (j : Fin 16) :
    (s.push h w).stack[j] = if j.val = s.sp.val then w else s.stack[j] := by
  simp [Vector.getElem_set, eq_comm]

theorem State.popPC_pc_eq (h : 0 < s.sp.val) {j : Fin 16} (hj : j.val = s.sp.val - 1) :
    (s.popPC h).pc = s.stack[j] := by
  simp [hj]

/-- Settles O24: the push writes the entry at SP alone, and the jump leaves the stack as it is. -/
theorem callPushesTheAdvancedPc : Obligations.CallPushesTheAdvancedPc := by
  intro nnn s hsp
  refine ⟨_, exec_call hsp, rfl, State.push_stack_getElem hsp s.pc, toNat_zextAddr nnn, ?_⟩
  exact ((s.push_kept hsp s.pc).mono (by simp)).trans ((State.setPC_kept _ _).mono (by simp))

/-- Settles O22: the pop reads the entry below SP and leaves it in place. -/
theorem retPopsTheCallStackIntoPc : Obligations.RetPopsTheCallStackIntoPc := by
  intro s hsp
  have hpos : 0 < s.sp.val := Nat.pos_of_ne_zero fun h => hsp (Fin.ext h)
  exact ⟨_, exec_ret hpos, Nat.sub_add_cancel hpos, fun _ hj => State.popPC_pc_eq hpos hj, rfl, s.popPC_kept hpos⟩

/-- Settles O25: what RET pops is the entry that CALL pushed, so pc and SP end as they began, and neither of the two
touches an older entry. -/
theorem retResumesAfterTheCall : Obligations.RetResumesAfterTheCall := by
  intro nnn s hsp
  obtain ⟨t, hcall, hdepth, hpushed, -, hcallFrame⟩ := callPushesTheAdvancedPc nnn s hsp
  have hne : t.sp ≠ 0 := fun h => by simp [h] at hdepth
  obtain ⟨u, hret, hdepth', hpopped, hstack, hretFrame⟩ := retPopsTheCallStackIntoPc t hne
  have hspBack : u.sp.val = s.sp.val := Nat.succ.inj (hdepth'.trans hdepth)
  have hpcBack : u.pc = s.pc := by
    rw [hpopped ⟨s.sp.val, hsp⟩ hspBack.symm, hpushed, if_pos rfl]
  refine ⟨t, u, hcall, hret, hpcBack, Fin.ext hspBack, fun j hj => ?_, ?_⟩
  · rw [hstack, hpushed, if_neg hj.ne]
  · exact (hcallFrame.trans hretFrame).of_cons hpcBack

/-! ## Jumps (R121, R127) -/

theorem exec_jp (nnn : Addr) (s : State) : exec (.jp nnn) s = .next (s.setPC (zextAddr nnn)) := rfl

theorem exec_jpV0 (nnn : Addr) (s : State) :
    exec (.jpV0 nnn) s = .next (s.setPC (zextAddr nnn + zextByte (s.getV 0))) := rfl

/-- A write of pc undoes the advance, so a jump back to where the step began leaves the state as it was. -/
theorem State.advance_setPC_pc (s : State) : s.advance.setPC s.pc = s := rfl

/-- A 12-bit address and a byte have a sum below 2^16. -/
theorem toNat_zextAddr_add_zextByte (nnn : Addr) (b : Byte) :
    (zextAddr nnn + zextByte b).toNat = nnn.toNat + b.toNat := by
  have hnnn : nnn.toNat < 4096 := nnn.isLt
  have hb : b.toNat < 256 := b.isLt
  rw [BitVec.toNat_add, toNat_zextAddr, toNat_zextByte]
  omega

/-- Settles O23: the jump writes pc; to the address of the step it gives back the state, and at 0xFFF the fetch check
latches the fault. -/
theorem jpJumpsToItsAddress : Obligations.JpJumpsToItsAddress := by
  refine ⟨fun nnn s => ?target, ?loop, ?top⟩
  case target => exact ⟨_, exec_jp nnn s, toNat_zextAddr nnn, s.setPC_kept _⟩
  case loop =>
    rintro nnn s ⟨hrun, hlt, hdec⟩ hpc
    rw [step_of_decoded hrun hlt hdec, exec_jp, zextAddr_eq_of_toNat hpc, State.advance_setPC_pc]
  case top =>
    intro s hrun
    have hfault := fetchAtTheTopLatchesMemoryOutOfRange (s.setPC (zextAddr 0xFFF)) hrun (by simp)
    exact ⟨_, _, exec_jp 0xFFF s, hfault, rfl⟩

/-- Settles O28: the sum fits in pc. -/
theorem jpV0AddsV0ToItsAddress : Obligations.JpV0AddsV0ToItsAddress := fun nnn s =>
  ⟨_, exec_jpV0 nnn s, toNat_zextAddr_add_zextByte nnn (s.getV 0), s.setPC_kept _⟩

/-! ## Skips (R123 to R126, R128) -/

/-- A skip on a test that decides c adds 2 to pc exactly if c holds, and writes nothing else. -/
theorem State.skipIf_of_iff {b : Bool} {c : Prop} [Decidable c] (h : b = true ↔ c) :
    ((s.skipIf b).pc = if c then s.pc + 2 else s.pc) ∧ KeptExcept [.pc] s (s.skipIf b) :=
  ⟨by simp only [State.skipIf_pc, h], s.skipIf_kept b⟩

/-- Settles O26: the tests of SE and SNE decide equality and its negation. -/
theorem skipsCompareARegisterWithAnImmediate : Obligations.SkipsCompareARegisterWithAnImmediate := fun _ _ _ =>
  ⟨⟨_, rfl, State.skipIf_of_iff beq_iff_eq⟩, ⟨_, rfl, State.skipIf_of_iff bne_iff_ne⟩⟩

/-- Settles O27: the same tests, on two registers. -/
theorem skipsCompareTwoRegisters : Obligations.SkipsCompareTwoRegisters := fun _ _ _ =>
  ⟨⟨_, rfl, State.skipIf_of_iff beq_iff_eq⟩, ⟨_, rfl, State.skipIf_of_iff bne_iff_ne⟩⟩

end Sys2Proof.Machine
end

section
/-! SUPPORT. The ALU family (43_alu.md): what a result and a flag leave in the registers, the arithmetic of a byte and its
flags, and the instructions made of them. Operands are read from the state before any write (40_cycle.md R85). -/

namespace Sys2Proof.Machine

variable {s t u : State} {x : Reg} {kk : Byte} {rs rs' : List Reg}

/-! ## Which registers a write leaves as they are -/

theorem RegsKeptExcept.mono (h : RegsKeptExcept rs s t) (hsub : rs ⊆ rs') : RegsKeptExcept rs' s t :=
  fun r hr => h r fun hmem => hr (hsub hmem)

theorem RegsKeptExcept.trans (hst : RegsKeptExcept rs s t) (htu : RegsKeptExcept rs t u) : RegsKeptExcept rs s u :=
  fun r hr => (htu r hr).trans (hst r hr)

theorem State.setV_regsKept (s : State) (x : Reg) (b : Byte) : RegsKeptExcept [x] s (s.setV x b) :=
  fun _ hr => s.getV_setV_ne (List.ne_of_not_mem_cons hr) b

theorem State.writeResultThenFlag_regsKept (s : State) (x : Reg) (res : Byte) (flg : Bool) :
    RegsKeptExcept [x, 15] s (s.writeResultThenFlag x res flg) :=
  ((s.setV_regsKept x res).mono (by simp)).trans ((State.setV_regsKept _ vf _).mono (by simp [vf]))

theorem State.writeFlagThenResult_regsKept (s : State) (x : Reg) (res : Byte) (flg : Bool) :
    RegsKeptExcept [x, 15] s (s.writeFlagThenResult x res flg) :=
  ((s.setV_regsKept vf _).mono (by simp [vf])).trans ((State.setV_regsKept _ x res).mono (by simp))

/-! ## What a result and a flag leave in the registers (R139) -/

/-- The effect of one register write, with its frame. -/
theorem State.setV_effect (s : State) (x : Reg) (b : Byte) :
    (s.setV x b).getV x = b ∧ RegsKeptExcept [x] s (s.setV x b) ∧ KeptExcept [.v] s (s.setV x b) :=
  ⟨s.getV_setV_self x b, s.setV_regsKept x b, s.setV_kept x b⟩

/-- The flag is written last, so it remains for every x. -/
theorem State.getV_flag_writeResultThenFlag (s : State) (x : Reg) (res : Byte) (flg : Bool) :
    (s.writeResultThenFlag x res flg).getV 15 = flagByte flg :=
  State.getV_setV_self _ vf _

theorem State.getV_dest_writeResultThenFlag (s : State) (hx : x ≠ 15) (res : Byte) (flg : Bool) :
    (s.writeResultThenFlag x res flg).getV x = res := by
  rw [State.getV_writeResultThenFlag, if_neg (show x ≠ vf from hx), if_pos rfl]

/-- The result is written last, so it remains for every x. -/
theorem State.getV_dest_writeFlagThenResult (s : State) (x : Reg) (res : Byte) (flg : Bool) :
    (s.writeFlagThenResult x res flg).getV x = res :=
  State.getV_setV_self _ x _

/-- Away from VF, P2 has no say: the result is in Vx and the flag in VF. -/
theorem State.writeAliased_of_ne_flag (s : State) (hx : x ≠ 15) (res : Byte) (flg : Bool) :
    ∃ t, s.writeAliased x res flg = .next t ∧ t.getV x = res ∧ t.getV 15 = flagByte flg ∧
      RegsKeptExcept [x, 15] s t ∧ KeptExcept [.v] s t :=
  ⟨s.writeResultThenFlag x res flg, if_neg hx, s.getV_dest_writeResultThenFlag hx res flg,
    s.getV_flag_writeResultThenFlag x res flg, s.writeResultThenFlag_regsKept x res flg,
    s.writeResultThenFlag_kept x res flg⟩

theorem State.writeAliased_docOrder (hp2 : s.cfg.vfAliasOrder = .docOrder) (res : Byte) (flg : Bool) :
    ∃ t, s.writeAliased 15 res flg = .next t ∧ t.getV 15 = res ∧ RegsKeptExcept [15] s t ∧ KeptExcept [.v] s t :=
  ⟨s.writeFlagThenResult 15 res flg, by simp [State.writeAliased, vf, hp2],
    s.getV_dest_writeFlagThenResult 15 res flg, (s.writeFlagThenResult_regsKept 15 res flg).mono (by simp),
    s.writeFlagThenResult_kept 15 res flg⟩

theorem State.writeAliased_flagLast (hp2 : s.cfg.vfAliasOrder = .flagLast) (res : Byte) (flg : Bool) :
    ∃ t, s.writeAliased 15 res flg = .next t ∧ t.getV 15 = flagByte flg ∧ RegsKeptExcept [15] s t ∧
      KeptExcept [.v] s t :=
  ⟨s.writeResultThenFlag 15 res flg, by simp [State.writeAliased, vf, hp2],
    s.getV_flag_writeResultThenFlag 15 res flg, (s.writeResultThenFlag_regsKept 15 res flg).mono (by simp),
    s.writeResultThenFlag_kept 15 res flg⟩

theorem State.writeAliased_refuse (hp2 : s.cfg.vfAliasOrder = .refuse) (res : Byte) (flg : Bool) :
    s.writeAliased 15 res flg = .refused .vfAliasOrder := by
  simp [State.writeAliased, vf, hp2]

/-! ## Results and flags as numbers (R140) -/

theorem toNat_sub_byte (a b : Byte) : (a - b).toNat = (a.toNat + 256 - b.toNat) % 256 := by
  have hb : b.toNat < 256 := b.isLt
  rw [BitVec.toNat_sub]
  omega

theorem toNat_shiftRight_one (a : Byte) : (a >>> 1).toNat = a.toNat / 2 := by
  rw [BitVec.toNat_ushiftRight, Nat.shiftRight_one]

theorem toNat_shiftLeft_one (a : Byte) : (a <<< 1).toNat = a.toNat * 2 % 256 := by
  rw [BitVec.toNat_shiftLeft, Nat.shiftLeft_eq]

theorem toNat_flagByte (f : Bool) : (flagByte f).toNat = f.toNat := by cases f <;> rfl

theorem flagByte_decide (p : Prop) [Decidable p] : flagByte (decide p) = if p then 1 else 0 := by
  simp [flagByte]

theorem flagByte_carry (a b : Byte) : flagByte (carry a b) = if 255 < a.toNat + b.toNat then 1 else 0 :=
  flagByte_decide _

theorem flagByte_noBorrow (a b : Byte) : flagByte (noBorrow a b) = if b.toNat ≤ a.toNat then 1 else 0 :=
  flagByte_decide _

theorem toNat_flagByte_noBorrow (a b : Byte) :
    (flagByte (noBorrow a b)).toNat = if b.toNat ≤ a.toNat then 1 else 0 := by
  rw [flagByte_noBorrow]
  split <;> rfl

/-- The bit SHR shifts out is the remainder of the halving. -/
theorem toNat_flagByte_lowBit (a : Byte) : (flagByte (lowBit a)).toNat = a.toNat % 2 := by
  rw [toNat_flagByte, lowBit, BitVec.getLsbD, Nat.toNat_testBit, pow_zero, Nat.div_one]

/-- The bit SHL shifts out is what the doubling carries past 255. -/
theorem toNat_flagByte_highBit (a : Byte) : (flagByte (highBit a)).toNat = a.toNat / 128 := by
  have ha : a.toNat < 256 := a.isLt
  rw [toNat_flagByte, highBit, BitVec.getLsbD, Nat.toNat_testBit]
  omega

/-! ## Immediates, moves and logic (R141 to R146) -/

/-- Settles O29: each is one register write, of the immediate or of the wrapped sum. -/
theorem immediatesLoadAndAddWithoutFlag : Obligations.ImmediatesLoadAndAddWithoutFlag := by
  intro x kk s
  obtain ⟨hsum, hregs, hkept⟩ := s.setV_effect x (s.getV x + kk)
  exact ⟨⟨_, rfl, s.setV_effect x kk⟩, ⟨_, rfl, by rw [hsum, BitVec.toNat_add], hregs, hkept⟩⟩

/-- Settles O30: each is one register write, of a byte whose bits are those of the operands, combined one by one. -/
theorem moveAndLogicWithoutFlag : Obligations.MoveAndLogicWithoutFlag := by
  intro x y s
  refine ⟨⟨_, rfl, s.setV_effect x _⟩, ⟨_, rfl, fun j _ => ?or, s.setV_regsKept x _, s.setV_kept x _⟩,
    ⟨_, rfl, fun j _ => ?and, s.setV_regsKept x _, s.setV_kept x _⟩,
    ⟨_, rfl, fun j _ => ?xor, s.setV_regsKept x _, s.setV_kept x _⟩⟩
  case or => rw [State.getV_setV_self, BitVec.getLsbD_or]
  case and => rw [State.getV_setV_self, BitVec.getLsbD_and]
  case xor => rw [State.getV_setV_self, BitVec.getLsbD_xor]

/-! ## Addition, subtraction and shifts (R147 to R151) -/

/-- Settles O31: ADD always writes the flag last, so the carry remains also when x = 0xF. -/
theorem addRegistersWritesSumThenCarry : Obligations.AddRegistersWritesSumThenCarry := by
  intro x y s
  refine ⟨_, rfl, fun hx => ?sum, ?carry, s.writeResultThenFlag_regsKept x _ _, s.writeResultThenFlag_kept x _ _⟩
  case sum => rw [s.getV_dest_writeResultThenFlag hx, BitVec.toNat_add]
  case carry => rw [State.getV_flag_writeResultThenFlag, flagByte_carry]

/-- Writing a difference and its no-borrow flag: SUB and SUBN are this with the operands in either order. -/
theorem State.writeAliased_difference (s : State) (hx : x ≠ 15) (a b : Byte) :
    ∃ t, s.writeAliased x (a - b) (noBorrow a b) = .next t ∧ (t.getV x).toNat = (a.toNat + 256 - b.toNat) % 256 ∧
      (t.getV 15 = if b.toNat ≤ a.toNat then 1 else 0) ∧ RegsKeptExcept [x, 15] s t ∧ KeptExcept [.v] s t := by
  obtain ⟨t, hnext, hres, hflag, hframe⟩ := s.writeAliased_of_ne_flag hx (a - b) (noBorrow a b)
  exact ⟨t, hnext, by rw [hres, toNat_sub_byte], by rw [hflag, flagByte_noBorrow], hframe⟩

/-- Settles O32: SUBN is SUB with the operands exchanged. -/
theorem subtractsWriteDifferenceAndNoBorrow : Obligations.SubtractsWriteDifferenceAndNoBorrow := fun x y s hx =>
  ⟨s.writeAliased_difference hx (s.getV x) (s.getV y), s.writeAliased_difference hx (s.getV y) (s.getV x)⟩

/-- Settles O33: the two shifts of Vx, and the bit each shifts out. -/
theorem shiftsWriteResultAndBitShiftedOut : Obligations.ShiftsWriteResultAndBitShiftedOut := by
  intro x s hx
  constructor
  · obtain ⟨t, hnext, hres, hflag, hframe⟩ :=
      s.writeAliased_of_ne_flag hx (s.getV x >>> 1) (lowBit (s.getV x))
    exact ⟨t, hnext, by rw [hres, toNat_shiftRight_one], by rw [hflag, toNat_flagByte_lowBit], hframe⟩
  · obtain ⟨t, hnext, hres, hflag, hframe⟩ :=
      s.writeAliased_of_ne_flag hx (s.getV x <<< 1) (highBit (s.getV x))
    exact ⟨t, hnext, by rw [hres, toNat_shiftLeft_one], by rw [hflag, toNat_flagByte_highBit], hframe⟩

/-! ## VF as the destination (R139, decision D6) -/

/-- Settles O34: all four instructions are one aliased write of their result and flag to VF, and P2 says what it leaves. -/
theorem flagRegisterAsDestinationFollowsP2 : Obligations.FlagRegisterAsDestinationFollowsP2 := by
  intro i y res flg s hi
  obtain ⟨r, f, hexec, rfl, rfl⟩ : ∃ (r : Byte) (f : Bool), exec i s = s.writeAliased 15 r f ∧ r.toNat = res ∧
      (flagByte f).toNat = flg := by
    rcases hi with ⟨rfl, rfl, rfl⟩ | ⟨rfl, rfl, rfl⟩ | ⟨rfl, rfl, rfl⟩ | ⟨rfl, rfl, rfl⟩
    · exact ⟨_, _, rfl, toNat_sub_byte _ _, toNat_flagByte_noBorrow _ _⟩
    · exact ⟨_, _, rfl, toNat_sub_byte _ _, toNat_flagByte_noBorrow _ _⟩
    · exact ⟨_, _, rfl, toNat_shiftRight_one _, toNat_flagByte_lowBit _⟩
    · exact ⟨_, _, rfl, toNat_shiftLeft_one _, toNat_flagByte_highBit _⟩
  rw [hexec]
  refine ⟨fun hp2 => ?docOrder, fun hp2 => ?flagLast, fun hp2 => State.writeAliased_refuse hp2 r f⟩
  case docOrder =>
    obtain ⟨t, hnext, hres, hframe⟩ := State.writeAliased_docOrder hp2 r f
    exact ⟨t, hnext, by rw [hres], hframe⟩
  case flagLast =>
    obtain ⟨t, hnext, hflag, hframe⟩ := State.writeAliased_flagLast hp2 r f
    exact ⟨t, hnext, by rw [hflag], hframe⟩

/-! ## RND (R152, 40_cycle.md R89, decision D19) -/

@[simp] theorem State.rndByte_offerRnd (s : State) (b : Byte) : (s.offerRnd b).rndByte = b := rfl

@[simp] theorem State.rndByte_advance (s : State) : s.advance.rndByte = s.rndByte := rfl

theorem exec_rnd (x : Reg) (kk : Byte) (s : State) :
    exec (.rnd x kk) s = .next (s.rndTaken.setV x (s.rndByte &&& kk)) := rfl

/-- The draw and the write of Vx, with their frame. -/
theorem State.rndTaken_setV_effect (s : State) (x : Reg) (b : Byte) :
    (s.rndTaken.setV x b).getV x = b ∧ RegsKeptExcept [x] s (s.rndTaken.setV x b) ∧
      KeptExcept [.v, .random] s (s.rndTaken.setV x b) := by
  refine ⟨State.getV_setV_self _ x b, fun r hr => ?regs, ?frame⟩
  case regs => rw [s.rndTaken.setV_regsKept x b r hr, State.getV_rndTaken]
  case frame => exact (s.rndTaken_kept.mono (by simp)).trans ((State.setV_kept _ x b).mono (by simp))

/-- A step transaction that leaves the block running tells the host Ok. -/
theorem stepWith_of_running {rnd : Byte} (hstep : step (s.offerRnd rnd) = .next t) (ht : t.Running) :
    stepWith rnd s = (t.dropRnd, .ok) := by
  simp only [stepWith, hstep, State.stepResult_of_running ht]

/-- The step transaction of a fetched Cxkk draws the byte it carries. -/
theorem stepWith_rnd (hfetch : s.Fetches (.rnd x kk)) (rnd : Byte) :
    stepWith rnd s = (((s.offerRnd rnd).advance.rndTaken.setV x (rnd &&& kk)).dropRnd, .ok) := by
  obtain ⟨hrun, hlt, hdec⟩ := hfetch
  have hstep : step (s.offerRnd rnd) = exec (.rnd x kk) (s.offerRnd rnd).advance := step_of_decoded hrun hlt hdec
  rw [exec_rnd, State.rndByte_advance, State.rndByte_offerRnd] at hstep
  exact stepWith_of_running hstep hrun

/-- The random byte's slots are the only parts the offer and the drop write, and the pc the only one of the advance. -/
theorem KeptExcept.of_offerRnd_advance_dropRnd {rnd : Byte}
    (h : KeptExcept [.v, .random] (s.offerRnd rnd).advance t) : KeptExcept [.v, .pc, .random] s t.dropRnd := by
  have hoffer : KeptExcept [.pc, .random] s (s.offerRnd rnd).advance := by
    simp [KeptExcept, Part.forall_iff, Part.Kept]
  have hdrop : KeptExcept [.random] t t.dropRnd := by
    simp [KeptExcept, Part.forall_iff, Part.Kept]
  exact ((hoffer.mono (by simp)).trans (h.mono (by simp))).trans (hdrop.mono (by simp))

/-- Settles O35: RND draws the step's input, which is the host's byte where one was offered. -/
theorem rndMasksTheStepsRandomByte : Obligations.RndMasksTheStepsRandomByte := by
  intro x kk s
  refine ⟨?unsaid, fun b => ?offered, fun hfetch rnd => ?transaction⟩
  case unsaid =>
    obtain ⟨hval, hframe⟩ := s.rndTaken_setV_effect x (s.rndByte &&& kk)
    exact ⟨_, exec_rnd x kk s, ⟨s.rndByte, hval⟩, hframe⟩
  case offered => exact ⟨_, exec_rnd x kk _, State.getV_setV_self _ x _⟩
  case transaction =>
    obtain ⟨hval, hregs, hkept⟩ := (s.offerRnd rnd).advance.rndTaken_setV_effect x (rnd &&& kk)
    exact ⟨_, stepWith_rnd hfetch rnd, hval, rfl, hregs, hkept.of_offerRnd_advance_dropRnd⟩

end Sys2Proof.Machine
end

section
/-! SUPPORT. The index and memory family (44_index_memory.md): what I is set to, the bytes that LD B and the register dump
store at the index base, and the registers that the register load reads from it. -/

namespace Sys2Proof.Machine

variable {s t : State} {x : Reg}

/-! ## The index register (R170, R171) -/

/-- Settles O36: each is one write of I, of the zero-extended address or of the wrapped sum. -/
theorem indexIsSetAndAddedTo : Obligations.IndexIsSetAndAddedTo := by
  intro nnn x s
  refine ⟨⟨_, rfl, toNat_zextAddr nnn, s.setI_kept _⟩, ⟨_, rfl, ?sum, s.setI_kept _⟩⟩
  case sum => rw [State.setI_i, BitVec.toNat_add, toNat_zextByte]

/-! ## Glyph addresses (R172) -/

/-- Five times a byte stays below 2^16. -/
theorem toNat_glyphAddr (b : Byte) : (glyphAddr b).toNat = b.toNat * 5 := by
  have hb : b.toNat < 256 := b.isLt
  rw [glyphAddr, BitVec.toNat_mul, toNat_zextByte]
  exact Nat.mod_eq_of_lt (show b.toNat * 5 < 2 ^ 16 by omega)

/-- LD F sets I for a digit, and under P5 = Formula for every byte. -/
theorem exec_ldF (h : (s.getV x).toNat ≤ 15 ∨ s.cfg.glyphAddrOor = .formula) :
    exec (.ldF x) s = .next (s.setI (glyphAddr (s.getV x))) := by
  refine if_neg ?_
  rintro ⟨habove, hrefuse⟩
  rcases h with hdigit | hformula
  · exact absurd habove (by omega)
  · exact absurd (hformula.symm.trans hrefuse) (by decide)

/-- Settles O37: P5 has a say only where Vx is above 15. -/
theorem glyphAddressIsFiveTimesVx : Obligations.GlyphAddressIsFiveTimesVx := fun _ s =>
  ⟨fun h => ⟨_, exec_ldF h, toNat_glyphAddr _, s.setI_kept _⟩, fun h => if_pos h⟩

/-- The byte of an intact glyph table is the font's. -/
theorem State.GlyphsIntact.readByte (hs : s.GlyphsIntact) {a : Nat} (ha : a < 80) : s.readByte a = s.cfg.font[a] :=
  (hs a ha).trans (dif_pos ha)

/-- Settles O38: I is below 4096, so the index base is the glyph's address, and the table there is intact. -/
theorem glyphAddressPointsAtTheDigitsGlyph : Obligations.GlyphAddressPointsAtTheDigitsGlyph := by
  intro x s hdigit hglyphs
  obtain ⟨hformula, -⟩ := glyphAddressIsFiveTimesVx x s
  obtain ⟨t, hexec, hi, hframe⟩ := hformula (.inl hdigit)
  refine ⟨t, hexec, fun k hk _ => ?_⟩
  have hbase : t.indexBase = 5 * (s.getV x).toNat := by
    rw [State.indexBase, hi, memSize]
    omega
  have hmem : ∀ a, t.readByte a = s.readByte a := hframe .mem (by decide)
  rw [hbase, hmem, hglyphs.readByte hk]

/-! ## What storing bytes does to memory (20_memory.md R45) -/

/-- Byte k of those stored is read back at offset k. -/
theorem State.readByte_writeBytes_offset (s : State) (base : Nat) {bs : List Byte} {k : Nat} (hk : k < bs.length) :
    (s.writeBytes base bs).readByte (base + k) = bs[k] := by
  have hin : base ≤ base + k ∧ base + k - base < bs.length := by omega
  rw [State.readByte_writeBytes, dif_pos hin]
  simp

theorem State.writeBytes_memKeptOutside (s : State) (base : Nat) {bs : List Byte} {len : Nat} (hlen : bs.length = len) :
    MemKeptOutside base len s (s.writeBytes base bs) :=
  fun _ ha => s.readByte_writeBytes_outside (hlen ▸ ha)

/-! ## LD B (R173, decisions D7, D10) -/

/-- LD B whose three bytes may be written stores the digits. -/
theorem exec_ldB (hrange : s.indexBase + 3 ≤ 4096) (hglyph : s.cfg.glyphWrite = .allow ∨ 0x050 ≤ s.indexBase) :
    exec (.ldB x) s = .next (s.writeBytes s.indexBase (bcdDigits (s.getV x))) := by
  have hcheck := (checkWrite_eq_none_of_pos (show 0 < 3 by decide)).2 ⟨hrange, hglyph⟩
  simp only [exec, execLdB, State.checked, hcheck]

@[simp] theorem bcdDigits_length (b : Byte) : (bcdDigits b).length = 3 := rfl

/-- The digits of b as numbers, read back where they are stored. -/
theorem State.toNat_readByte_writeBytes_bcdDigits (s : State) (base : Nat) (b : Byte) :
    ((s.writeBytes base (bcdDigits b)).readByte base).toNat = b.toNat / 100 ∧
      ((s.writeBytes base (bcdDigits b)).readByte (base + 1)).toNat = b.toNat / 10 % 10 ∧
      ((s.writeBytes base (bcdDigits b)).readByte (base + 2)).toNat = b.toNat % 10 := by
  have hb : b.toNat < 256 := b.isLt
  have hread {k : Nat} (hk : k < (bcdDigits b).length) := s.readByte_writeBytes_offset base hk
  have hdigit {d : Nat} (hd : d < 2 ^ 8) : (BitVec.ofNat 8 d).toNat = d := Nat.mod_eq_of_lt hd
  refine ⟨?hundreds, ?tens, ?units⟩
  case hundreds => exact (congrArg _ (hread (k := 0) (by simp))).trans (hdigit (by omega))
  case tens => exact (congrArg _ (hread (k := 1) (by simp))).trans (hdigit (by omega))
  case units => exact (congrArg _ (hread (k := 2) (by simp))).trans (hdigit (by omega))

/-- Settles O39: a byte is the decimal number of its digits, of which the first is at most 2. -/
theorem bcdStoresTheDecimalDigits : Obligations.BcdStoresTheDecimalDigits := by
  intro x s hrange hglyph
  obtain ⟨hhundreds, htens, hunits⟩ := s.toNat_readByte_writeBytes_bcdDigits s.indexBase (s.getV x)
  have hx : (s.getV x).toNat < 256 := (s.getV x).isLt
  refine ⟨_, exec_ldB hrange hglyph, ?value, ?hundreds, ?tens, ?units,
    s.writeBytes_memKeptOutside _ (bcdDigits_length _), s.writeBytes_kept _ _⟩
  case value => rw [hhundreds, htens, hunits]; omega
  case hundreds => rw [hhundreds]; omega
  case tens => rw [htens]; omega
  case units => rw [hunits]; omega

/-! ## The register dump and load (R174, R175, decisions D7, D10, D23) -/

/-- Settles O40: the stored bytes are V0..Vx in order. -/
theorem registerDumpStoresV0ToVx : Obligations.RegisterDumpStoresV0ToVx := fun x s hrange hglyph =>
  ⟨_, exec_storeRegs hrange hglyph, fun _ hr => s.readByte_writeBytes_vUpTo _ hr,
    s.writeBytes_memKeptOutside _ (s.vUpTo_length x), s.writeBytes_kept _ _⟩

/-- A register load whose range lies in memory reads its registers from it. -/
theorem exec_loadRegs (hrange : s.indexBase + x.val + 1 ≤ 4096) :
    exec (.loadRegs x) s = .next (s.setVUpTo x fun r => s.readByte (s.indexBase + r)) := by
  have hcheck : checkRange s.indexBase (x.val + 1) = none := checkRange_eq_none.2 (.inr hrange)
  simp only [exec, execLoadRegs, State.checked, hcheck]

/-- Settles O41: one write of V0..Vx, from bytes read before it. -/
theorem registerLoadReadsV0ToVx : Obligations.RegisterLoadReadsV0ToVx := fun x s hrange =>
  ⟨_, exec_loadRegs hrange, s.getV_setVUpTo x _, s.setVUpTo_kept x _⟩

/-- The index base is given by I alone. -/
theorem State.indexBase_of_i (h : t.i = s.i) : t.indexBase = s.indexBase := by
  rw [State.indexBase, h, State.indexBase]

/-- Settles O42: neither the dump nor what happens to the registers moves I, so the load reads the bytes dumped. -/
theorem registerLoadAfterDumpRestores : Obligations.RegisterLoadAfterDumpRestores := by
  intro x s hrange hglyph
  obtain ⟨t, hdump, hstored, -, hframe⟩ := registerDumpStoresV0ToVx x s hrange hglyph
  refine ⟨t, hdump, fun v' => ?_⟩
  have hbase : ({ t with v := v' } : State).indexBase = s.indexBase := State.indexBase_of_i (hframe .i (by decide))
  obtain ⟨u, hload, hloaded, -⟩ := registerLoadReadsV0ToVx x { t with v := v' } (by rwa [hbase])
  rw [hbase] at hloaded
  refine ⟨u, hload, fun r hr => ?_, fun r hr => ?_⟩
  · rw [hloaded, if_pos hr]
    exact hstored r hr
  · rw [hloaded, if_neg (not_le.2 hr)]
    rfl

end Sys2Proof.Machine
end

section
/-! SUPPORT. The keypad and timer family (45_keys_timers.md): the key that a register value names, the skips on its level,
the wait for a key, and the moves between a register and the timers. -/

namespace Sys2Proof.Machine

variable {s : State} {x : Reg} {k : Key} {b : Byte} {p4 : KeyIndexOor}

/-! ## The skips on a key (R190, R191, R196, decision D11) -/

/-- A byte at most 15 names its key under either setting of P4; under P4 = Mask the low nibble names it. -/
theorem keyOf_eq_some (h : b.toNat = k.val ∨ (p4 = .mask ∧ b.toNat % 16 = k.val)) : keyOf p4 b = some k := by
  have hk : k.val < 16 := k.isLt
  by_cases hb : b.toNat < 16
  case pos =>
    have hval : b.toNat = k.val := by omega
    rw [keyOf_of_le (Nat.le_of_lt_succ hb)]
    exact congrArg some (Fin.ext hval)
  case neg =>
    obtain ⟨rfl, hnibble⟩ := h.resolve_left (by omega)
    rw [keyOf, dif_neg hb]
    exact congrArg some (Fin.ext hnibble)

theorem exec_skp (h : keyOf s.cfg.keyIndexOor (s.getV x) = some k) :
    exec (.skp x) s = .next (s.skipIf (s.isDown k)) := by
  simp only [exec, execSkp, h]

theorem exec_sknp (h : keyOf s.cfg.keyIndexOor (s.getV x) = some k) :
    exec (.sknp x) s = .next (s.skipIf (!s.isDown k)) := by
  simp only [exec, execSknp, h]

/-- Settles O44: both skips test the level of the one key that Vx names, in opposite senses. -/
theorem skipsFollowTheNamedKey : Obligations.SkipsFollowTheNamedKey := by
  intro x k s hnames
  have hkey := keyOf_eq_some hnames
  refine ⟨⟨_, exec_skp hkey, State.skipIf_of_iff Iff.rfl⟩, ⟨_, exec_sknp hkey, ?pc, s.skipIf_kept _⟩⟩
  case pc => cases hdown : s.isDown k <;> simp

/-! ## The wait for a key (R193, R196) -/

/-- The key found is the lowest one down. -/
theorem State.anyDown_of_lowest (hk : s.isDown k = true) (hlow : ∀ j : Key, j < k → s.isDown j = false) :
    s.anyDown = some k := by
  cases hany : s.anyDown with
  | none => simp [s.anyDown_eq_none.1 hany k] at hk
  | some j =>
    obtain ⟨hj, hlow'⟩ := s.anyDown_eq_some hany
    rcases lt_trichotomy j k with hlt | rfl | hlt
    · simp [hlow j hlt] at hj
    · rfl
    · simp [hlow' k hlt] at hk

theorem toNat_keyByte (k : Key) : (keyByte k).toNat = k.val :=
  Nat.mod_eq_of_lt (k.isLt.trans (by decide))

theorem exec_ldVxK_of_down (h : s.anyDown = some k) : exec (.ldVxK x) s = .next (s.setV x (keyByte k)) := by
  simp only [exec, execLdVxK, h]

theorem exec_ldVxK_of_none_down (h : ∀ k : Key, s.isDown k = false) : exec (.ldVxK x) s = .next s.rewind := by
  simp only [exec, execLdVxK, s.anyDown_eq_none.2 h]

/-- Settles O46: one write of Vx or one of pc, whether a key is down or none. -/
theorem waitForKeyTakesTheLowestKeyOrRewinds : Obligations.WaitForKeyTakesTheLowestKeyOrRewinds := by
  refine fun x s => ⟨fun k hk hlow => ?down, fun hnone => ?waiting⟩
  case down =>
    obtain ⟨hval, hframe⟩ := s.setV_effect x (keyByte k)
    exact ⟨_, exec_ldVxK_of_down (State.anyDown_of_lowest hk hlow), by rw [hval, toNat_keyByte], hframe⟩
  case waiting =>
    have hpc : (s.pc - 2).toNat = (s.pc.toNat + 0xFFFE) % 65536 :=
      (BitVec.toNat_sub _ _).trans (congrArg (· % 65536) (Nat.add_comm _ _))
    exact ⟨_, exec_ldVxK_of_none_down hnone, hpc, s.setPC_kept _⟩

/-- Settles O47: the step advances pc, and the wait takes the advance back, mod 2^16. -/
theorem waitingStepLeavesTheStateAsItWas : Obligations.WaitingStepLeavesTheStateAsItWas := by
  rintro x s ⟨hrun, hlt, hdec⟩ hnone
  have hnone' : ∀ k : Key, s.advance.isDown k = false := hnone
  rw [step_of_decoded hrun hlt hdec, exec_ldVxK_of_none_down hnone', State.rewind_advance]

/-! ## The timers (R192, R194, R195) -/

/-- A timer at 0 stays there (60_exceptions.md R307). -/
theorem decrement_zero : decrement 0 = 0 := by decide

/-- Settles O45: each is one write, of Vx or of a timer. -/
theorem timersAreReadAndSet : Obligations.TimersAreReadAndSet := by
  intro x s
  refine ⟨⟨_, rfl, s.setV_effect x s.dt⟩, ⟨_, rfl, rfl, fun hzero => ?stopped, s.setDT_kept _⟩,
    ⟨_, rfl, rfl, s.setST_kept _⟩⟩
  case stopped => rw [tick_dt, State.setDT_dt, hzero, decrement_zero]

end Sys2Proof.Machine
end

section
/-! SUPPORT. The tables of faults and refusals (60_exceptions.md R300, R301, R303): what the execute phase answers, given
by what the two tables say of the instruction, and so when a step answers a next state. -/

namespace Sys2Proof.Machine

variable {i : Instr} {s : State}

/-! ## What the tables have an instruction answer -/

/-- The answer to instruction i at s where the tables give this refusal and this fault: a refusal comes first, then a
raised fault, and with neither the instruction completes and latches nothing. -/
def Answers (i : Instr) (s : State) (answer : Result) : Option Refusal → Option Fault → Prop
  | some why, _ => answer = .refused why
  | none, some f => answer = .next (s.raise f i)
  | none, none => ∃ t, answer = .next t ∧ t.Running

/-- An instruction of which both tables are silent may answer any running state. -/
theorem Answers.completes {t : State} (ht : t.Running) : Answers i s (.next t) none none := ⟨t, rfl, ht⟩

/-- Checks that give the fault of the table raise it, and the rest happens only where there is none (R301). -/
theorem Answers.of_checked {check fault : Option Fault} {rest : State} (hcheck : check = fault)
    (hrest : rest.Running) : Answers i s (s.checked check i rest) none fault := by
  subst hcheck
  cases check with
  | some f => rfl
  | none => exact .completes hrest

/-- An aliased write is refused where P2 = Refuse and x = 0xF, and latches nothing elsewhere. -/
theorem Answers.of_writeAliased (hrun : s.Running) (x : Reg) (res : Byte) (flg : Bool) :
    Answers i s (s.writeAliased x res flg)
      (if x = 15 ∧ s.cfg.vfAliasOrder = .refuse then some .vfAliasOrder else none) none := by
  by_cases hrefuse : x = 15 ∧ s.cfg.vfAliasOrder = .refuse
  case pos =>
    obtain ⟨rfl, hp2⟩ := hrefuse
    rw [if_pos ⟨rfl, hp2⟩]
    exact State.writeAliased_refuse hp2 res flg
  case neg =>
    rw [if_neg hrefuse]
    cases h : s.writeAliased x res flg with
    | next t =>
      have hkept : t.fault = s.fault := State.writeAliased_kept h .fault (by decide)
      exact .completes (hkept.trans hrun)
    | fault c => exact absurd h (s.writeAliased_ne_fault x res flg c)
    | refused why =>
      rcases s.writeAliased_cases h with ⟨-, h⟩ | ⟨-, -, h⟩ | ⟨-, -, h⟩ | ⟨hx, hp2, -⟩
      · cases h
      · cases h
      · cases h
      · exact absurd ⟨hx, hp2⟩ hrefuse

/-! ## The checks, as the fault table writes them (20_memory.md R42, R44) -/

theorem checkRange_indexBase (s : State) (len : Nat) :
    checkRange s.indexBase len = if s.outOfRange len then some .memoryOutOfRange else none := by
  simp only [State.outOfRange, decide_eq_true_eq]
  rfl

theorem checkGlyph_indexBase (s : State) {len : Nat} (hlen : 0 < len) :
    checkGlyph s.cfg.glyphWrite s.indexBase len = if s.hitsGlyphs then some .glyphTableWrite else none := by
  simp only [checkGlyph, hlen, true_and, State.hitsGlyphs, decide_eq_true_eq]
  rfl

theorem checkWrite_indexBase (s : State) {len : Nat} (hlen : 0 < len) :
    checkWrite s.cfg.glyphWrite s.indexBase len =
      if s.outOfRange len then some .memoryOutOfRange else if s.hitsGlyphs then some .glyphTableWrite else none := by
  rw [checkWrite, checkRange_indexBase, checkGlyph_indexBase s hlen]
  cases s.outOfRange len with
  | true => rfl
  | false => rfl

/-! ## The execute phase -/

theorem exec_ret_of_empty (h : s.sp.val = 0) : exec .ret s = .next (s.raise .stackUnderflow .ret) :=
  dif_neg (by omega)

theorem exec_call_of_full {nnn : Addr} (h : s.sp.val = 16) :
    exec (.call nnn) s = .next (s.raise .stackOverflow (.call nnn)) :=
  dif_neg (by omega)

/-- Every instruction answers as the tables say. -/
theorem exec_answers (hrun : s.Running) (i : Instr) : Answers i s (exec i s) (refusalOf i s) (faultOf i s) := by
  cases i
  case drw => exact .of_checked (checkRange_indexBase s _) hrun
  case loadRegs => exact .of_checked (checkRange_indexBase s _) ((State.setVUpTo_fault ..).trans hrun)
  case ldB => exact .of_checked (checkWrite_indexBase s (by decide)) ((State.writeBytes_fault ..).trans hrun)
  case storeRegs x =>
    exact .of_checked (checkWrite_indexBase s x.val.succ_pos) ((State.writeBytes_fault ..).trans hrun)
  case sub | subn | shr | shl => exact .of_writeAliased hrun _ _ _
  case ret =>
    by_cases hempty : s.sp.val = 0
    · rw [exec_ret_of_empty hempty, faultOf, if_pos hempty]
      rfl
    · rw [exec_ret (Nat.pos_of_ne_zero hempty), faultOf, if_neg hempty]
      exact .completes hrun
  case call =>
    have hsp : s.sp.val < 17 := s.sp.isLt
    by_cases hfull : s.sp.val = 16
    · rw [exec_call_of_full hfull, faultOf, if_pos hfull]
      rfl
    · rw [exec_call (by omega), faultOf, if_neg hfull]
      exact .completes hrun
  case skp x | sknp x =>
    by_cases hkey : 15 < (s.getV x).toNat ∧ s.cfg.keyIndexOor = .fault
    · simp only [exec, execSkp, execSknp, keyOf_eq_none.2 hkey, faultOf, if_pos hkey]
      rfl
    · obtain ⟨k, hk⟩ := Option.ne_none_iff_exists'.1 (mt keyOf_eq_none.1 hkey)
      simp only [exec, execSkp, execSknp, hk, faultOf, if_neg hkey]
      exact .completes ((State.skipIf_fault ..).trans hrun)
  case ldF x =>
    by_cases hrefuse : 15 < (s.getV x).toNat ∧ s.cfg.glyphAddrOor = .refuse
    · simp only [exec, execLdF, refusalOf, if_pos hrefuse]
      rfl
    · simp only [exec, execLdF, refusalOf, if_neg hrefuse]
      exact .completes hrun
  case ldVxK =>
    cases hany : s.anyDown with
    | some k => rw [exec_ldVxK_of_down hany]; exact .completes hrun
    | none => rw [exec_ldVxK_of_none_down (s.anyDown_eq_none.1 hany)]; exact .completes hrun
  case seByte | sneByte | seReg | sneReg => exact .completes ((State.skipIf_fault ..).trans hrun)
  all_goals exact .completes hrun

/-- Settles O6: the execute phase answers as the tables say, and a raise changes the pc and the latch only. -/
theorem instructionsFaultExactlyAsTheFaultTableSays : Obligations.InstructionsFaultExactlyAsTheFaultTableSays := by
  intro i s hrun
  have hanswers := exec_answers hrun i
  refine ⟨fun why hwhy => ?refused, fun hwhy f hf => ?faults, fun hwhy hf => ?completes⟩
  case refused => rwa [hwhy] at hanswers
  case faults => rwa [hwhy, hf] at hanswers
  case completes => rwa [hwhy, hf] at hanswers

/-! ## When a step answers a next state (R303) -/

/-- Every refusal of the table needs the setting Refuse of P2 or of P5. -/
theorem refusalOf_eq_none (hp2 : s.cfg.vfAliasOrder ≠ .refuse) (hp5 : s.cfg.glyphAddrOor ≠ .refuse) (i : Instr) :
    refusalOf i s = none := by
  cases i
  case sub | subn | shr | shl => exact if_neg fun ⟨_, hrefuse⟩ => hp2 hrefuse
  case ldF => exact if_neg fun ⟨_, hrefuse⟩ => hp5 hrefuse
  all_goals rfl

/-- An instruction that is not refused answers a next state, whether it faults or completes. -/
theorem exec_next_of_not_refused (hrun : s.Running) (hwhy : refusalOf i s = none) : ∃ t, exec i s = .next t := by
  obtain ⟨-, hfaults, hcompletes⟩ := instructionsFaultExactlyAsTheFaultTableSays i s hrun
  cases hf : faultOf i s with
  | some f => exact ⟨_, hfaults hwhy f hf⟩
  | none =>
    obtain ⟨t, ht, -⟩ := hcompletes hwhy hf
    exact ⟨t, ht⟩

/-- Settles O7: of what a step of a running block can do, only an instruction's refusal answers no next state. -/
theorem runningStepAnswersNextUnlessParametersRefuse : Obligations.RunningStepAnswersNextUnlessParametersRefuse := by
  intro s hrun hp2 hp5
  rcases step_cases (rfl : step s = step s) with ⟨r, hf, -⟩ | ⟨-, -, h⟩ | ⟨-, -, -, h⟩ | ⟨-, -, i, -, h⟩
  · exact absurd (hrun.symm.trans hf) (by simp)
  · exact ⟨_, h⟩
  · exact ⟨_, h⟩
  · rw [h]
    exact exec_next_of_not_refused hrun (refusalOf_eq_none hp2 hp5 i)

end Sys2Proof.Machine
end

section
/-! SUPPORT. The host's transactions and runs of them (60_exceptions.md R307, R310 to R314): the frame of each transaction,
what every one of them keeps, and one induction over a run for its invariants. -/

namespace Sys2Proof.Machine

variable {s t : State} {r : FaultRecord} {tx : Transaction}

/-! ## One frame rule per transaction -/

theorem KeptExcept.refl (ps : List Part) (s : State) : KeptExcept ps s s := by
  simp [KeptExcept, Part.forall_iff, Part.Kept]

theorem tick_kept (s : State) : KeptExcept [.dt, .st] s (tick s) := by
  simp [KeptExcept, Part.forall_iff, Part.Kept]

theorem keySet_kept (k : Key) (d : Bool) (s : State) : KeptExcept [.keys] s (keySet k d s) := by
  simp [KeptExcept, Part.forall_iff, Part.Kept]

theorem clearChanged_kept (s : State) : KeptExcept [.changed] s (clearChanged s) := by
  simp [KeptExcept, Part.forall_iff, Part.Kept]

/-- A load stores the image where it fits above 0x200, and nothing elsewhere (70_reset_and_hazards.md R352). -/
theorem transact_load_cases (bytes : List Byte) (s : State) :
    (0x200 + bytes.length ≤ memSize ∧ transact (.load bytes) s = (s.writeBytes 0x200 bytes, .loadOk)) ∨
    (memSize < 0x200 + bytes.length ∧ transact (.load bytes) s = (s, .loadError)) := by
  by_cases hlong : memSize < 0x200 + bytes.length
  · exact .inr ⟨hlong, by simp only [transact, load, if_pos hlong]⟩
  · exact .inl ⟨not_lt.1 hlong, by simp only [transact, load, if_neg hlong]⟩

/-- Settles O52: a reset puts the reset state back, whatever the state was, but for the count of draws. -/
theorem resetTransactionRestoresEveryElement : Obligations.ResetTransactionRestoresEveryElement := by
  intro s p hp
  cases p with
  | random => simp at hp
  | v | mem => exact fun _ => rfl
  | stack => exact ⟨rfl, rfl⟩
  | cfg | i | pc | dt | st | grid | changed | keys | fault => rfl

/-! ## Keypad and display (R310, R311, decisions D21, D26) -/

theorem isDown_keySet (k : Key) (d : Bool) (s : State) (j : Key) :
    (keySet k d s).isDown j = if j = k then d else s.isDown j := by
  simp [State.isDown, Vector.getElem_set, Fin.ext_iff, eq_comm]

/-- Settles O50: each of the two updates is one write, and the reads answer from the state they leave. -/
theorem keypadAndDisplayTransactionsDoOneThing : Obligations.KeypadAndDisplayTransactionsDoOneThing := by
  intro k d s
  refine ⟨⟨?named, fun j hj => ?others, keySet_kept k d s⟩, ⟨rfl, clearChanged_kept s⟩, rfl, rfl⟩
  case named => exact (isDown_keySet k d s k).trans (if_pos rfl)
  case others => exact (isDown_keySet k d s j).trans (if_neg hj)

/-! ## Ticks (R307) -/

theorem toNat_decrement (b : Byte) : (decrement b).toNat = b.toNat - 1 := by
  unfold decrement
  split_ifs with hpos
  · exact BitVec.toNat_sub_of_le (BitVec.le_def.2 hpos)
  · simp; omega

/-- Settles O48, by induction on the number of ticks: one more tick takes one more, unless the timer is at 0. -/
theorem ticksCountDownAndStopAtZero : Obligations.TicksCountDownAndStopAtZero := by
  intro n s
  induction n with
  | zero => exact ⟨rfl, rfl, .refl _ s⟩
  | succ n ih =>
    obtain ⟨hdt, hst, hkept⟩ := ih
    rw [Function.iterate_succ_apply']
    refine ⟨?dt, ?st, hkept.trans (tick_kept _)⟩
    case dt => rw [tick_dt, toNat_decrement, hdt, Nat.sub_sub]
    case st => rw [tick_st, toNat_decrement, hst, Nat.sub_sub]

/-! ## What every transaction keeps (R313, 20_memory.md R40) -/

theorem State.memCanonical_resetWith (c : Config) : (State.resetWith c).MemCanonical := Memory.wf_nil c.font

/-- A step transaction keeps what its step keeps: the random byte it offers and drops is neither parameter nor memory. -/
theorem stepWith_keeps_cfg_memCanonical (rnd : Byte) (s : State) :
    (stepWith rnd s).1.cfg = s.cfg ∧ (s.MemCanonical → (stepWith rnd s).1.MemCanonical) := by
  rcases stepWith_cases rnd s with ⟨r, -, h⟩ | ⟨-, t, hstep, h⟩ | ⟨-, why, -, h⟩
  · rw [h]; exact ⟨rfl, id⟩
  · rw [h]
    have hcfg : t.cfg = s.cfg := step_keeps_cfg (s := s.offerRnd rnd) hstep
    exact ⟨hcfg, fun hs => stepKeepsMemoryCanonical (s.offerRnd rnd) t hs hstep⟩
  · rw [h]; exact ⟨rfl, id⟩

/-- Settles O58: of the eight transactions only step, load and reset write memory, and none writes a parameter. -/
theorem transactionsKeepParametersAndCanonicalMemory : Obligations.TransactionsKeepParametersAndCanonicalMemory := by
  intro tx s
  cases tx with
  | reset => exact ⟨rfl, fun _ => State.memCanonical_resetWith s.cfg⟩
  | load bytes =>
    rcases transact_load_cases bytes s with ⟨hfits, h⟩ | ⟨-, h⟩
    · rw [h]
      refine ⟨State.writeBytes_cfg .., fun hs => ?_⟩
      rw [State.MemCanonical, State.writeBytes_cfg]
      exact State.writeBytes_wf hs hfits
    · rw [h]; exact ⟨rfl, id⟩
  | step rnd => exact stepWith_keeps_cfg_memCanonical rnd s
  | tick | keySet | readDisplay | clearChanged | readFault => exact ⟨rfl, id⟩

/-! ## A latched block (R302, 40_cycle.md R87, decision D14) -/

/-- With the latch set, only the timers, memory, the keypad and the changed flag are open to the host short of a reset. -/
theorem transact_kept_of_latched (hf : s.fault = some r) (htx : tx ≠ .reset) :
    KeptExcept [.dt, .st, .mem, .keys, .changed] s (transact tx s).1 := by
  cases tx with
  | reset => exact absurd rfl htx
  | load bytes =>
    rcases transact_load_cases bytes s with ⟨-, h⟩ | ⟨-, h⟩
    · rw [h]; exact (s.writeBytes_kept _ _).mono (by simp)
    · rw [h]; exact .refl _ s
  | step rnd =>
    obtain ⟨hstopped, -⟩ := latchedStepExecutesNothing s r hf
    have h : (stepWith rnd s).1 = s := congrArg Prod.fst (hstopped rnd)
    rw [transact, h]
    exact .refl _ s
  | tick => exact (tick_kept s).mono (by simp)
  | keySet k down => exact (keySet_kept k down s).mono (by simp)
  | clearChanged => exact (clearChanged_kept s).mono (by simp)
  | readDisplay | readFault => exact .refl _ s

/-! ## Invariants of a run (R313, R314, decision D18) -/

/-- What holds of a run, and is kept by each of the transactions to come, holds after them all. -/
theorem Run.transactAll_invariant {P : Run → Prop} {run : Run} {txs : List Transaction} (hrun : P run)
    (hkeep : ∀ run', P run' → ∀ tx ∈ txs, P (run'.transact tx)) : P (run.transactAll txs) :=
  List.foldlRecOn txs Run.transact hrun hkeep

/-- Settles O16: each transaction leaves the latch set, so the next one finds the block stopped too. -/
theorem faultedBlockStaysStoppedUntilReset : Obligations.FaultedBlockStaysStoppedUntilReset := by
  intro txs s m r hf hreset
  refine Run.transactAll_invariant (P := fun run => KeptExcept [.dt, .st, .mem, .keys, .changed] s run.state)
    (.refl _ s) fun run hkept tx htx => ?_
  have hlatch : run.state.fault = s.fault := hkept .fault (by decide)
  exact hkept.trans (transact_kept_of_latched (hlatch.trans hf) (ne_of_mem_of_not_mem htx hreset))

/-- The invariants of a run from reset under the parameters c. -/
def State.MeetsInvariants (c : Config) (s : State) : Prop :=
  s.cfg = c ∧ s.MemCanonical ∧ (c.glyphWrite = .fault → s.GlyphsIntact)

theorem State.resetWith_meetsInvariants (c : Config) : (State.resetWith c).MeetsInvariants c :=
  ⟨rfl, State.memCanonical_resetWith c, fun _ => State.glyphsIntact_resetWith c⟩

theorem State.MeetsInvariants.transact {c : Config} (hs : s.MeetsInvariants c) (tx : Transaction) :
    (Machine.transact tx s).1.MeetsInvariants c := by
  obtain ⟨rfl, hmem, hglyphs⟩ := hs
  obtain ⟨hcfg, hmem'⟩ := transactionsKeepParametersAndCanonicalMemory tx s
  exact ⟨hcfg, hmem' hmem, fun hp3 => glyphTableIsNeverOverwritten tx s hp3 (hglyphs hp3)⟩

/-- Settles O12: the invariants hold at reset and every transaction keeps them. -/
theorem everyRunKeepsParametersMemoryAndGlyphs : Obligations.EveryRunKeepsParametersMemoryAndGlyphs := fun c _ =>
  Run.transactAll_invariant (P := fun run => run.state.MeetsInvariants c) (State.resetWith_meetsInvariants c)
    fun _ hs tx _ => hs.transact tx

/-! ## The refusal mark (R303, decisions D6, D12) -/

/-- Where P2 and P5 do not refuse, no transaction answers a refusal: the step is the only one that could. -/
theorem transact_refusal_eq_none (hp2 : s.cfg.vfAliasOrder ≠ .refuse) (hp5 : s.cfg.glyphAddrOor ≠ .refuse)
    (tx : Transaction) : (transact tx s).2.refusal = none := by
  cases tx with
  | step rnd =>
    rcases stepWith_cases rnd s with ⟨r, -, h⟩ | ⟨-, t, -, h⟩ | ⟨hrun, why, hstep, -⟩
    · rw [transact, h]; rfl
    · rw [transact, h, State.stepResult]
      cases t.fault with
      | none => rfl
      | some r => rfl
    · obtain ⟨t, ht⟩ := runningStepAnswersNextUnlessParametersRefuse (s.offerRnd rnd) hrun hp2 hp5
      rw [ht] at hstep
      cases hstep
  | load bytes =>
    rcases transact_load_cases bytes s with ⟨-, h⟩ | ⟨-, h⟩
    · rw [h]; rfl
    · rw [h]; rfl
  | reset | tick | keySet | readDisplay | clearChanged | readFault => rfl

/-- Settles O17: without the setting Refuse no transaction answers a refusal, and a later refusal does not replace the
mark. -/
theorem refusalMarkIsKeptAndNeedsAParameter : Obligations.RefusalMarkIsKeptAndNeedsAParameter := by
  refine ⟨fun c txs hp2 hp5 => ?unset, fun run why txs hmark => ?kept⟩
  case unset =>
    have hkeep : ∀ run : Run, run.refusal = none ∧ run.state.cfg = c → ∀ tx ∈ txs,
        (run.transact tx).refusal = none ∧ (run.transact tx).state.cfg = c := by
      rintro run ⟨hmark, rfl⟩ tx -
      have hnone := transact_refusal_eq_none hp2 hp5 tx
      obtain ⟨hcfg, -⟩ := transactionsKeepParametersAndCanonicalMemory tx run.state
      exact ⟨by simp only [Run.transact, hmark, hnone, Option.none_or], hcfg⟩
    obtain ⟨hmark, -⟩ :=
      Run.transactAll_invariant (run := { state := State.resetWith c, refusal := none }) ⟨rfl, rfl⟩ hkeep
    exact hmark
  case kept =>
    refine Run.transactAll_invariant (P := fun run => run.refusal = some why) hmark fun run hmark tx _ => ?_
    simp only [Run.transact, hmark, Option.some_or]

end Sys2Proof.Machine
end

section
/-! SUPPORT. Reset and load (70_reset_and_hazards.md sections 1 and 2): what the parts of the reset state read as, and
what a load stores. -/

namespace Sys2Proof.Machine

/-! ## Load (R352, decision D20) -/

/-- Settles O49: of the two things a load can do, the length of the image says which. -/
theorem loadCopiesTheImageOrRejectsIt : Obligations.LoadCopiesTheImageOrRejectsIt := by
  intro bytes s
  have hlimit : memSize = 0x200 + 3584 := rfl
  rcases transact_load_cases bytes s with ⟨hfits, hload⟩ | ⟨hlong, hload⟩
  · refine ⟨fun _ => ⟨_, hload, fun k hk => ?copied, ?outside, ?frame⟩, fun hlong => by omega⟩
    case copied => exact s.readByte_writeBytes_offset 0x200 hk
    case outside => exact s.writeBytes_memKeptOutside 0x200 rfl
    case frame => exact s.writeBytes_kept 0x200 bytes
  · exact ⟨fun hfits => by omega, fun _ => hload⟩

/-! ## The reset state (R350, R351, decisions D2, D14, D17) -/

/-- Settles O10: an empty list is canonical and reads as the font, and no fault is latched. -/
theorem resetMeetsTheInvariants : Obligations.ResetMeetsTheInvariants := fun c =>
  ⟨State.memCanonical_resetWith c, State.glyphsIntact_resetWith c, rfl⟩

@[simp] theorem State.getV_resetWith (c : Config) (r : Reg) : (State.resetWith c).getV r = 0 := by
  simp [State.getV, State.resetWith]

@[simp] theorem State.stack_resetWith (c : Config) (j : Fin 16) : (State.resetWith c).stack[j] = 0 := by
  simp [State.resetWith]

@[simp] theorem State.isDown_resetWith (c : Config) (k : Key) : (State.resetWith c).isDown k = false := by
  simp [State.isDown, State.resetWith]

/-- The grid after reset is the grid after CLS. -/
@[simp] theorem State.fb_resetWith (c : Config) : (State.resetWith c).fb = Grid.clear := rfl

/-- No address is listed after reset, so each reads as its reset contents. -/
theorem State.readByte_resetWith (c : Config) (a : Nat) : (State.resetWith c).readByte a = resetByte c.font a := rfl

/-- Settles O51: the glyph table is intact, every other address is unlisted, the arrays read 0 at each index, and the
other parts are those the reset state names. -/
theorem resetValueOfEveryElement : Obligations.ResetValueOfEveryElement := by
  intro c
  refine ⟨State.getV_resetWith c, rfl, rfl, rfl, State.stack_resetWith c, rfl, rfl, fun a ha => ?glyphs,
    fun a ha => ?zeros, fun r k => ?dark, rfl, State.isDown_resetWith c, rfl, rfl⟩
  case glyphs => exact (State.glyphsIntact_resetWith c).readByte ha
  case zeros => rw [State.readByte_resetWith, resetByte, dif_neg (not_lt.2 ha)]
  case dark => rw [State.fb_resetWith, Grid.pixel_clear]

end Sys2Proof.Machine
end
